-- ==== Sys2Proof/Word.lean ====
section
/-! DEFINITION. The vectors of rules R8, R10, R20, R24 and R81: their widths, and nothing else. -/

namespace Sys2Proof

/-- XLEN = 32: a general register, a CSR, `alu_out`, `rs1_data`, `rs2_data`, `imm_z`, a bus address (R8, R50). -/
abbrev Word := BitVec 32

/-- The unit of the memory bus (R50). -/
abbrev Byte := BitVec 8

/-- A general register's index (R23, R28; the width is decision D23, log 18). -/
abbrev RegIndex := BitVec 5

/-- A CSR address: 4096 of them (R8, R24). -/
abbrev CsrAddr := BitVec 12

/-- One packed writeback command, format WBCMD (R81; decision D2, log 4). -/
abbrev CommandWord := BitVec 150

end Sys2Proof
end

