-- ==== Sys2Proof/Syntax.lean ====
section
/-! DEFINITION. The writeback command (rule R28): the operand record and the 24 opcode classes (rules R2, R82). -/

namespace Sys2Proof

/-- The operand part of the command `cmd` of R28: every field, whether or not the class reads it (R83; log 19). -/
structure Fields where
  /-- `cmd.rd`, the destination register index. -/
  rd : RegIndex
  /-- `cmd.csr`, the CSR address. -/
  csr : CsrAddr
  /-- `cmd.imm_z`, the zero-extended immediate of the immediate CSR forms (R85). -/
  immZ : Word
  /-- `cmd.rs1_data`, read upstream. -/
  rs1Data : Word
  /-- `cmd.rs2_data`, read upstream. -/
  rs2Data : Word
  /-- `cmd.alu_out`: effective address, branch outcome or result (R28). -/
  aluOut : Word
  deriving DecidableEq, Repr

/-- The closed enumeration of opcode classes (R2, R82, R106), each with its command's fields.
Every field has its width in its type, so every term is a command the driver may hand over. -/
inductive Instr where
  | lb (c : Fields)
  | lbu (c : Fields)
  | lh (c : Fields)
  | lhu (c : Fields)
  | lw (c : Fields)
  | sb (c : Fields)
  | sh (c : Fields)
  | sw (c : Fields)
  | beq (c : Fields)
  | bne (c : Fields)
  | blt (c : Fields)
  | bge (c : Fields)
  | bltu (c : Fields)
  | bgeu (c : Fields)
  | csrrw (c : Fields)
  | csrrwi (c : Fields)
  | csrrs (c : Fields)
  | csrrsi (c : Fields)
  | csrrc (c : Fields)
  | csrrci (c : Fields)
  | ecall (c : Fields)
  | mret (c : Fields)
  | fence (c : Fields)
  /-- The residual class: every instruction that produces a plain ALU result (R180, R181). -/
  | other (c : Fields)
  deriving DecidableEq, Repr

/-- The fields of the command, whatever its class. -/
def Instr.fields : Instr → Fields
  | .lb c => c
  | .lbu c => c
  | .lh c => c
  | .lhu c => c
  | .lw c => c
  | .sb c => c
  | .sh c => c
  | .sw c => c
  | .beq c => c
  | .bne c => c
  | .blt c => c
  | .bge c => c
  | .bltu c => c
  | .bgeu c => c
  | .csrrw c => c
  | .csrrwi c => c
  | .csrrs c => c
  | .csrrsi c => c
  | .csrrc c => c
  | .csrrci c => c
  | .ecall c => c
  | .mret c => c
  | .fence c => c
  | .other c => c

/-- The command of the same class with other fields. -/
def Instr.withFields : Instr → Fields → Instr
  | .lb _, d => .lb d
  | .lbu _, d => .lbu d
  | .lh _, d => .lh d
  | .lhu _, d => .lhu d
  | .lw _, d => .lw d
  | .sb _, d => .sb d
  | .sh _, d => .sh d
  | .sw _, d => .sw d
  | .beq _, d => .beq d
  | .bne _, d => .bne d
  | .blt _, d => .blt d
  | .bge _, d => .bge d
  | .bltu _, d => .bltu d
  | .bgeu _, d => .bgeu d
  | .csrrw _, d => .csrrw d
  | .csrrwi _, d => .csrrwi d
  | .csrrs _, d => .csrrs d
  | .csrrsi _, d => .csrrsi d
  | .csrrc _, d => .csrrc d
  | .csrrci _, d => .csrrci d
  | .ecall _, d => .ecall d
  | .mret _, d => .mret d
  | .fence _, d => .fence d
  | .other _, d => .other d

end Sys2Proof
end

