-- ==== Sys2Proof/Config.lean ====
section
/-! DEFINITION. The parameters of rule R9 as plain data, their defaults, and the values no source gives (opaque). -/

namespace Sys2Proof

/-- The direction of a bus access, and of the fault it may raise (R191). -/
inductive Dir where
  | read
  | write
  deriving DecidableEq, Repr

/-- The three access widths of the bus, in bytes (R8, R57). -/
inductive Width where
  | b1
  | b2
  | b4
  deriving DecidableEq, Repr

/-- The width in bytes: 1, 2 or 4. -/
@[reducible] def Width.bytes : Width → Nat
  | .b1 => 1
  | .b2 => 2
  | .b4 => 4

/-- The width in bits of the value a bus primitive moves (R51, R52). -/
@[reducible] def Width.bits : Width → Nat
  | .b1 => 8
  | .b2 => 16
  | .b4 => 32

/-- What answers behind an admitted address: memory, or a peripheral (R57, R58). -/
inductive Target where
  | ram
  | device
  deriving DecidableEq, Repr

/-- One window of the platform's address map: a piece of the parameter `BusAdmits(dir, addr, n)` (R9, R56, R58).
It admits an access of a direction and a width it allows, aligned if it asks for that, whose bytes all
lie in the `size` bytes from `base` on, counted modulo 2^32 (log 9). -/
structure Window where
  base : Word
  size : Nat
  kind : Target
  readable : Bool
  writable : Bool
  /-- The widths the window admits: 1, 2 and 4 bytes. -/
  admits1 : Bool
  admits2 : Bool
  admits4 : Bool
  /-- Natural alignment required (R56). -/
  aligned : Bool
  deriving DecidableEq, Repr

/-- How a 2- or 4-byte access maps to byte addresses (R9 `BYTE_ORDER`, R55). -/
inductive ByteOrder where
  | little
  | big
  deriving DecidableEq, Repr

/-- The probe's `addr_of`, a function of the command (R101): a fixed address, the command's `alu_out`,
or a function of the whole command of which nothing is known (log 7). -/
inductive ProbeAddress where
  | fixed (a : Word)
  | aluOut
  | unknown
  deriving DecidableEq, Repr

/-- The diagnostic bus read of phase 0 (R101): its address and its width. -/
structure Probe where
  addr : ProbeAddress
  width : Width
  deriving DecidableEq, Repr

/-- What the driver's loop does with a writeback memory fault: "halt the emulated machine, inject a trap, or terminate"
(R9 `ON_FAULT`, R194; log 14). -/
inductive OnFault where
  /-- Halt or terminate: the run ends in the fault, which is no final state, and no later command is issued (D13). -/
  | endRun
  /-- Inject a trap: the driver writes the CSRs of its own trap entry and goes on with the next command of its stream;
  the faulting command is not retried (R195). -/
  | injectTrap
  deriving DecidableEq, Repr

/-- The named parameters of R9. They are fixed for a machine: no operation of the model writes them (log 3).
`XREG_RESET` is an argument of the reset (`State.launch`). -/
structure Config where
  /-- `ECALL_CAUSE_CSR`, the fixed CSR address that ECALL writes (R27, R170). -/
  ecallCauseCsr : CsrAddr
  /-- `ECALL_CAUSE_CODE`, the fixed cause code that ECALL writes (R170). -/
  ecallCauseCode : Word
  /-- `DIAG_PROBE` (R101). -/
  diagProbe : Option Probe
  /-- `BusAdmits` as the platform's windows; the first that admits an access decides what answers it. -/
  windows : List Window
  /-- `BYTE_ORDER` (R55). -/
  byteOrder : ByteOrder
  /-- `ON_FAULT` (R194). -/
  onFault : OnFault
  deriving DecidableEq, Repr

/-- The reference `BusAdmits` of 95_test_vectors.md: RAM at 0x00001000 to 0x00001FFF, natural alignment required. -/
def Window.referenceRam : Window :=
  { base := 0x00001000, size := 0x1000, kind := .ram, readable := true, writable := true,
    admits1 := true, admits2 := true, admits4 := true, aligned := true }

/-- The defaults of R9: decisions D5 (PRESUMED, log 6), D6 (log 7), D7 (log 8), D8 and D9 (log 9),
D13 (log 14). -/
def Config.reference : Config :=
  { ecallCauseCsr := 0x342, ecallCauseCode := 0x0000000B, diagProbe := none,
    windows := [Window.referenceRam], byteOrder := .little, onFault := .endRun }

/-- One access that reached a peripheral: what the peripheral has seen of the block (R57, R134 item 4; log 11).
`data` is the value moved, zero-extended. -/
structure BusEvent where
  dir : Dir
  width : Width
  addr : Word
  data : Word
  deriving DecidableEq, Repr

/-- FREE VALUE: what a peripheral answers to a read (93_implementation_defined.md U13: any value; log 11). It may depend on
every access it has seen before, so two reads of one address may differ (R57). A narrow read takes the low bits. -/
opaque Config.deviceAnswer : List BusEvent → Word → Width → Word

/-- FREE VALUE: the probe's address as an unknown function of the command (R101, 91_not_in_source.md N2; log 7). -/
opaque Config.probeAddress : Instr → Word

end Sys2Proof
end

