-- ==== Sys2Proof/WellFormed.lean ====
section
/-! DEFINITION. What the driver and the platform owe the block (rule R225). A term of `Instr` needs no check: every field
carries its width in its type (decisions D11, D23). -/

namespace Sys2Proof

/-- R225 item 3: the command's `op` is one of the 24 classes; codes 24 to 31 are reserved (R84). -/
def CommandWord.wellFormed (w : CommandWord) : Bool :=
  decide ((w.extractLsb' 0 5).toNat < 24)

/-- A window is not empty and no larger than the address space (R50). -/
def Window.wellFormed (win : Window) : Bool :=
  decide (0 < win.size) && decide (win.size ≤ 2 ^ 32)

/-- Every window of the platform's map is well formed. -/
def Config.wellFormed (cfg : Config) : Bool :=
  cfg.windows.all Window.wellFormed

end Sys2Proof
end

