-- ==== Sys2Proof/Decode.lean ====
section
/-! DEFINITION. The WBCMD decoder of rules R81, R82 and R84, total and refusing by name, and the encoder written from
the same tables. -/

namespace Sys2Proof

/-- Why a command word decodes to nothing: its `op` is one of the reserved codes 24 to 31 (R84, decision D4). -/
inductive Reject where
  | reservedOp (code : BitVec 5)
  deriving DecidableEq, Repr

/-- `op`, bits 4:0 (R81). -/
def opField (w : CommandWord) : BitVec 5 := w.extractLsb' 0 5

/-- The operand fields at their places in the word (R81). -/
def commandFields (w : CommandWord) : Fields :=
  { rd := w.extractLsb' 5 5
    csr := w.extractLsb' 10 12
    immZ := w.extractLsb' 22 32
    rs1Data := w.extractLsb' 54 32
    rs2Data := w.extractLsb' 86 32
    aluOut := w.extractLsb' 118 32 }

/-- The class table of R82. -/
def decodeClass (op : BitVec 5) (c : Fields) : Except Reject Instr :=
  match op.toNat with
  | 0 => .ok (.lb c)
  | 1 => .ok (.lbu c)
  | 2 => .ok (.lh c)
  | 3 => .ok (.lhu c)
  | 4 => .ok (.lw c)
  | 5 => .ok (.sb c)
  | 6 => .ok (.sh c)
  | 7 => .ok (.sw c)
  | 8 => .ok (.beq c)
  | 9 => .ok (.bne c)
  | 10 => .ok (.blt c)
  | 11 => .ok (.bge c)
  | 12 => .ok (.bltu c)
  | 13 => .ok (.bgeu c)
  | 14 => .ok (.csrrw c)
  | 15 => .ok (.csrrwi c)
  | 16 => .ok (.csrrs c)
  | 17 => .ok (.csrrsi c)
  | 18 => .ok (.csrrc c)
  | 19 => .ok (.csrrci c)
  | 20 => .ok (.ecall c)
  | 21 => .ok (.mret c)
  | 22 => .ok (.fence c)
  | 23 => .ok (.other c)
  | _ => .error (.reservedOp op)

/-- The decoder of the command word: read `op`, find its row (R82). -/
def decode (w : CommandWord) : Except Reject Instr :=
  decodeClass (opField w) (commandFields w)

/-- The code of each class (R82, decision D3). -/
def opCode : Instr → BitVec 5
  | .lb _ => 0
  | .lbu _ => 1
  | .lh _ => 2
  | .lhu _ => 3
  | .lw _ => 4
  | .sb _ => 5
  | .sh _ => 6
  | .sw _ => 7
  | .beq _ => 8
  | .bne _ => 9
  | .blt _ => 10
  | .bge _ => 11
  | .bltu _ => 12
  | .bgeu _ => 13
  | .csrrw _ => 14
  | .csrrwi _ => 15
  | .csrrs _ => 16
  | .csrrsi _ => 17
  | .csrrc _ => 18
  | .csrrci _ => 19
  | .ecall _ => 20
  | .mret _ => 21
  | .fence _ => 22
  | .other _ => 23

/-- The WBCMD pattern string of R81, most significant field first. -/
def encodeFields (c : Fields) (op : BitVec 5) : CommandWord :=
  c.aluOut ++ c.rs2Data ++ c.rs1Data ++ c.immZ ++ c.csr ++ c.rd ++ op

/-- The command word of a command. -/
def encode (i : Instr) : CommandWord :=
  encodeFields i.fields (opCode i)

/-- The word of a row given as `nbits` bits; bits above them are 0 (log 5). -/
def tableWord (nbits w : Nat) : Nat := w % 2 ^ nbits

/-- The instruction the decoder reads from a table row's bits; a number of more than 150 bits is no command word (log 5). -/
def decodeTableWord (nbits w : Nat) : Option Instr :=
  if tableWord nbits w < 2 ^ 150 then
    match decode (BitVec.ofNat 150 (tableWord nbits w)) with
    | .ok i => some i
    | .error _ => none
  else none

end Sys2Proof
end

