-- ==== Sys2Proof/Machine/State.lean ====
section
/-! DEFINITION. The state as plain data, the reasons a step can stop, and the state after reset. -/

namespace Sys2Proof.Machine

/-- The one failure of the block (R190), a closed type. -/
inductive Fault where
  /-- The writeback memory fault: raised by the load classes (`read`) and the store classes (`write`) when, and only
  when, the bus refuses their access (R190), with the payload of R191. It is the transaction's result; `step` ends the
  run with it where `ON_FAULT` is `endRun`, the default (R194, decision D13; log 14). SAFE: a stop the spec gives. -/
  | writebackMem (dir : Dir) (width : Width) (addr : Word)
  deriving DecidableEq, Repr

/-- Why a step has no meaning, a closed type. -/
inductive Refusal where
  /-- Raised by an arm of `exec` whose instruction has no meaning yet; no arm does so now. SAFE. -/
  | notModelled (mnemonic : String)
  /-- Raised by `step` on a command word whose `op` is a reserved code, 24 to 31 (R84, decision D4). SAFE: the source
  gives such a word no behaviour (log 4). -/
  | reservedOp (code : BitVec 5)
  /-- Raised by `step` when the driver has handed over no command: the run is over (decision D24). SAFE (log 2). -/
  | noCommand
  deriving DecidableEq, Repr

/-- Memory behind the bus as the bytes that differ from `unlistedByte`, addresses strictly rising (`Memory.wf`). -/
abbrev Memory := List Host.Cell

/-- What a byte of RAM that nothing has written and nothing has loaded reads as (DESIGN CHOICE, log 10, unsafe). -/
def unlistedByte : Byte := 0

/-- The CSR bank: a sparse mapping from 12-bit addresses to 32-bit values (R24). A listed address is *mapped*, also
when its value is 0 (R158); an unlisted one is unmapped and reads 0 (R25). -/
abbrev CsrBank := List (CsrAddr × Word)

/-- Everything the spec gives the machine. There is no pc, no mode, no flag and no interrupt state (R30, R32, R33,
R196, R199). -/
structure State where
  /-- The 32 general registers (R20). Index 0 is hardwired in `State.readReg` and `State.writeReg` (R21, R22). -/
  x : Vector Word 32
  /-- The CSR bank (R24). -/
  csr : CsrBank
  /-- Memory behind the bus (R50). -/
  mem : Memory
  /-- What the peripherals behind the bus have seen of the block, oldest access first: their state as far as the
  block can change it (R57, decision D14; log 11). -/
  devices : List BusEvent
  /-- The command words the pipeline driver has ready, the next one first: the block's input, the model's own field
  (R28, R225, decision D16; log 2). -/
  commands : List CommandWord
  /-- The parameters of R9, fixed for the machine (log 3). -/
  cfg : Config
  deriving DecidableEq, Repr

/-- A platform's start: parameters, `XREG_RESET`, load image and command stream; `x[0]` is 0 whatever `XREG_RESET`
says (R21), the CSR bank is empty and nothing has touched a peripheral (R36, R220). -/
def State.launch (cfg : Config) (xregs : Vector Word 32) (mem : Memory) (commands : List CommandWord) : State :=
  { x := xregs.set 0 0, csr := [], mem := mem, devices := [], commands := commands, cfg := cfg }

/-- The machine right after reset (R36, R220): the default parameters, x1 to x31 at 0 (DESIGN CHOICE, log 12, unsafe),
every CSR unmapped, memory with nothing listed, and no command handed over yet (R221; log 2). -/
def State.reset : State :=
  State.launch Config.reference (Vector.replicate 32 0) [] []

end Sys2Proof.Machine

namespace Sys2Proof

/-- FREE VALUE: the CSR writes a driver that injects a trap makes for its trap entry, in order (R194: how it injects one must
not be inferred; log 25). They may depend on the whole machine, the faulting command and the fault. -/
opaque Config.trapWrites : Machine.State → Instr → Machine.Fault → List (CsrAddr × Word)

end Sys2Proof
end

