-- ==== Sys2Proof/Machine/Flags.lean ====
section
/-! DEFINITION. The block has no status flags (rule R32), so no flag is computed anywhere. This file holds the 32-bit
computations of rule R110 that an ordinary ISA would hang flags on; none of them sets any. -/

namespace Sys2Proof.Machine

/-- CSRRW, CSRRWI: the source operand overwrites the CSR (R103). -/
def csrOverwrite (_old operand : Word) : Word := operand

/-- CSRRS, CSRRSI: `t | m` (R103, R110). -/
def csrSetBits (old operand : Word) : Word := old ||| operand

/-- CSRRC, CSRRCI: `t & ~m`, all 32 bits of `m` inverted (R103, R110). -/
def csrClearBits (old operand : Word) : Word := old &&& ~~~operand

/-- `sext_32` (R12). -/
def sext32 {n : Nat} (v : BitVec n) : Word := v.signExtend 32

/-- `zext_32` (R12). -/
def zext32 {n : Nat} (v : BitVec n) : Word := v.setWidth 32

end Sys2Proof.Machine
end

