-- ==== Sys2Proof/Machine/Operands.lean ====
section
/-! DEFINITION. Every operand form of the command: the address and data of an access, the source operand of a CSR class, and
how a value of several bytes lies in memory. -/

namespace Sys2Proof.Machine

/-- The one addressing mode of loads and stores: `alu_out`, unchanged (R50, R120, R130). -/
def accessAddr (c : Fields) : Word := c.aluOut

/-- The low `8n` bits of `rs2_data`, which a store of width n puts on the bus (R130). -/
def storeData (w : Width) (c : Fields) : BitVec w.bits := c.rs2Data.setWidth w.bits

/-- The source operand of CSRRW, CSRRS and CSRRC (R150). -/
def registerOperand (c : Fields) : Word := c.rs1Data

/-- The source operand of CSRRWI, CSRRSI and CSRRCI: all 32 bits of `imm_z` (R85, R159). -/
def immediateOperand (c : Fields) : Word := c.immZ

/-- Byte `k` of a value, byte 0 the least significant. -/
def valueByte {n : Nat} (v : BitVec n) (k : Nat) : Byte := v.extractLsb' (8 * k) 8

/-- The offset from the access's address at which byte `k` of its value lies (R55). -/
def byteOffset (order : ByteOrder) (w : Width) (k : Nat) : Nat :=
  match order with
  | .little => k
  | .big => w.bytes - 1 - k

/-- The address of byte `k` of an access at `a`, modulo 2^32 (R55). -/
def byteAddr (order : ByteOrder) (w : Width) (a : Word) (k : Nat) : Word :=
  a + BitVec.ofNat 32 (byteOffset order w k)

/-- A value of width `w` from its bytes, byte 0 the least significant. -/
def joinBytes (w : Width) (b : Nat → Byte) : BitVec w.bits :=
  match w with
  | .b1 => b 0
  | .b2 => b 1 ++ b 0
  | .b4 => b 3 ++ b 2 ++ b 1 ++ b 0

end Sys2Proof.Machine
end

