-- ==== Sys2Proof/Machine/Ops.lean ====
section
/-! DEFINITION. The named operations over registers, CSRs, memory and the bus, taking the one exception and the return
from it, the failure of a transaction, and the driver: its next command and what it does with a result. -/

namespace Sys2Proof.Machine

/-! ### The register file -/

/-- `x[i]` (R13, R20): register 0 reads 0 at all times (R21). -/
def State.readReg (s : State) (i : RegIndex) : Word :=
  if i = 0 then 0 else s.x[i.toNat]'(i.isLt)

/-- `x[i] <- v`, the write port (R13, R23): a write to register 0 is dropped here, at the write boundary (R22, R107). -/
def State.writeReg (s : State) (i : RegIndex) (v : Word) : State :=
  if i = 0 then s else { s with x := s.x.set i.toNat v i.isLt }

/-! ### The CSR bank -/

/-- The value last written to an address, `none` while it is unmapped (R24). -/
def CsrBank.lookup : CsrBank → CsrAddr → Option Word
  | [], _ => none
  | (b, v) :: bank, a => if b = a then some v else CsrBank.lookup bank a

/-- Map an address to a value, the list kept in rising order of address. -/
def CsrBank.insert : CsrBank → CsrAddr → Word → CsrBank
  | [], a, v => [(a, v)]
  | (b, u) :: bank, a, v =>
    if b < a then (b, u) :: CsrBank.insert bank a v
    else if b = a then (a, v) :: bank
    else (a, v) :: (b, u) :: bank

/-- The canonical form of the bank: addresses strictly rising, so that each is listed once. -/
abbrev CsrBank.wf (bank : CsrBank) : Prop :=
  bank.Pairwise (fun p q => p.1 < q.1)

/-- `csr[a]`: total, without effect; an unmapped address reads 0 (R13, R25). -/
def State.readCsr (s : State) (a : CsrAddr) : Word :=
  (CsrBank.lookup s.csr a).getD 0

/-- Whether an address has been written (R24). -/
def State.csrMapped (s : State) (a : CsrAddr) : Bool :=
  (CsrBank.lookup s.csr a).isSome

/-- `csr[a] <- v`: total, exactly the 32 bits, nothing else changed (R13, R26). -/
def State.writeCsr (s : State) (a : CsrAddr) (v : Word) : State :=
  { s with csr := CsrBank.insert s.csr a v }

/-- Several CSR writes, in order. -/
def State.writeCsrs (s : State) : List (CsrAddr × Word) → State
  | [] => s
  | (a, v) :: rest => State.writeCsrs (s.writeCsr a v) rest

/-! ### Memory, byte by byte -/

/-- The byte at an address; an unlisted one is `unlistedByte` (log 10). -/
def Memory.read : Memory → Nat → Byte
  | [], _ => unlistedByte
  | (b, v) :: m, a => if b = a then v else Memory.read m a

/-- Put a byte in front of cells that lie above its address, listing it only if it differs from `unlistedByte`. -/
def Memory.place (a : Nat) (v : Byte) (m : Memory) : Memory :=
  if v = unlistedByte then m else (a, v) :: m

/-- Write one byte, the canonical form kept. -/
def Memory.write : Memory → Nat → Byte → Memory
  | [], a, v => Memory.place a v []
  | (b, u) :: m, a, v =>
    if b < a then (b, u) :: Memory.write m a v
    else if b = a then Memory.place a v m
    else Memory.place a v ((b, u) :: m)

/-- The canonical form of memory: addresses strictly rising and below 2^32 (R50), no entry that an unlisted address
would read the same. -/
abbrev Memory.wf (m : Memory) : Prop :=
  m.Pairwise (fun p q => p.1 < q.1) ∧ ∀ c ∈ m, c.1 < 2 ^ 32 ∧ c.2 ≠ unlistedByte

/-- The byte of RAM at a bus address (R50). -/
def State.byteAt (s : State) (a : Word) : Byte := Memory.read s.mem a.toNat

/-! ### The bus -/

/-- The window's share of `BusAdmits(dir, addr, n)` (R9, R56, R58; log 9). -/
def Window.admits (win : Window) (dir : Dir) (w : Width) (a : Word) : Bool :=
  (match dir with
    | .read => win.readable
    | .write => win.writable)
  && (match w with
    | .b1 => win.admits1
    | .b2 => win.admits2
    | .b4 => win.admits4)
  && (!win.aligned || decide (a.toNat % w.bytes = 0))
  && decide ((a - win.base).toNat + w.bytes ≤ win.size)

/-- What answers an access, `none` where the bus admits it nowhere and so fails it: `BusAdmits` (R56, R58). -/
def Config.target (cfg : Config) (dir : Dir) (w : Width) (a : Word) : Option Target :=
  (cfg.windows.find? (fun win => Window.admits win dir w a)).map Window.kind

/-- BusError: opaque to the block, without fields (R53). Only `busError` is ever built. -/
abbrev BusError := Unit

/-- The bus refused the access. -/
def busError : BusError := ()

/-- The value of width `w` that RAM holds at `a` (R55). -/
def State.ramValue (s : State) (w : Width) (a : Word) : BitVec w.bits :=
  joinBytes w (fun k => s.byteAt (byteAddr s.cfg.byteOrder w a k))

/-- Memory with byte `k` of a value written at its place, for each `k` below `n` (R55). -/
def writeBytes (order : ByteOrder) (w : Width) (a : Word) (v : BitVec w.bits) : Nat → Memory → Memory
  | 0, m => m
  | k + 1, m => Memory.write (writeBytes order w a v k m) (byteAddr order w a k).toNat (valueByte v k)

/-- The RAM write of all the bytes of an access. -/
def State.writeRam (s : State) (w : Width) (a : Word) (v : BitVec w.bits) : State :=
  { s with mem := writeBytes s.cfg.byteOrder w a v w.bytes s.mem }

/-- A peripheral has seen one access. -/
def State.seen (s : State) (e : BusEvent) : State :=
  { s with devices := s.devices ++ [e] }

/-- What a peripheral answers to a read in this state: a free value of the width (R57; log 11). -/
def State.deviceValue (s : State) (w : Width) (a : Word) : BitVec w.bits :=
  (Config.deviceAnswer s.devices a w).setWidth w.bits

/-- `MemRead(addr, n)`: one bus primitive `read8`, `read16` or `read32` (R13, R51). The read of a peripheral is seen
by it (R57); a failed read has no effect (R54, decision D19). -/
def memRead (w : Width) (a : Word) (s : State) : Except BusError (BitVec w.bits × State) :=
  match Config.target s.cfg .read w a with
  | none => .error busError
  | some .ram => .ok (s.ramValue w a, s)
  | some .device => .ok (s.deviceValue w a, s.seen ⟨.read, w, a, (s.deviceValue w a).setWidth 32⟩)

/-- `MemWrite(addr, n, v)`: one bus primitive `write8`, `write16` or `write32` (R13, R52); a failed one has changed
no byte (R54). -/
def memWrite (w : Width) (a : Word) (v : BitVec w.bits) (s : State) : Except BusError State :=
  match Config.target s.cfg .write w a with
  | none => .error busError
  | some .ram => .ok (s.writeRam w a v)
  | some .device => .ok (s.seen ⟨.write, w, a, v.setWidth 32⟩)

/-! ### Phase 0, the diagnostic probe -/

/-- `addr_of(cmd)` (R101). -/
def probeAddr (p : ProbeAddress) (i : Instr) : Word :=
  match p with
  | .fixed a => a
  | .aluOut => i.fields.aluOut
  | .unknown => Config.probeAddress i

/-- Phase 0 for every class: with `DIAG_PROBE = none` nothing, else one `MemRead` whose value and error are
discarded (R101, R195). -/
def diagProbe (i : Instr) (s : State) : State :=
  match s.cfg.diagProbe with
  | none => s
  | some p =>
    match memRead p.width (probeAddr p.addr i) s with
    | .ok (_, s') => s'
    | .error _ => s

/-! ### The one failure, the one exception and the return from it -/

/-- `raise WritebackMemFault(dir, n, addr)`: the transaction ends at once (R13, R190, R191). The block itself takes no further
action (R194); what the driver does is `driverTakes`. -/
def raiseMemFault (dir : Dir) (w : Width) (a : Word) : Host.Outcome State Fault Refusal :=
  .fault (.writebackMem dir w a)

/-- Taking the environment-call exception: the whole of its entry is the write of a fixed cause code into a fixed CSR.
It saves no pc and no status, changes no mode and goes to no handler (R170, R198). -/
def takeEnvironmentCall (s : State) : State :=
  s.writeCsr s.cfg.ecallCauseCsr s.cfg.ecallCauseCode

/-- Return from the exception: nothing was saved, nothing is restored (R171, R200). -/
def returnFromTrap (s : State) : State := s

/-! ### The driver -/

/-- The command word the driver hands over next, and the state without it (R225; log 2). -/
def nextCommand (s : State) : Option (CommandWord × State) :=
  match s.commands with
  | [] => none
  | w :: rest => some (w, { s with commands := rest })

/-- The driver has one more command word ready, before all the others. -/
def State.handOver (s : State) (w : CommandWord) : State :=
  { s with commands := w :: s.commands }

/-- The driver injects a trap for the fault `f` of command `i`: its own CSR writes, a free value (log 25), after which it goes on
with its stream (R194, R225 item 5). -/
def injectTrap (i : Instr) (f : Fault) (s : State) : State :=
  s.writeCsrs (Config.trapWrites s i f)

/-- What the driver's loop makes of the result of the transaction of `i` that began in `s`: `ON_FAULT` decides what a fault
does (R9, R194, R225 item 5). A faulting transaction has done phase 0 and nothing else (R108). -/
def driverTakes (i : Instr) (s : State) (o : Host.Outcome State Fault Refusal) : Host.Outcome State Fault Refusal :=
  match o with
  | .next t => .next t
  | .refused r => .refused r
  | .fault f =>
    match s.cfg.onFault with
    | .endRun => .fault f
    | .injectTrap => .next (injectTrap i f (diagProbe i s))

end Sys2Proof.Machine
end

