-- ==== Sys2Proof/Machine/Branches.lean ====
section
/-! DEFINITION. BEQ, BNE, BLT, BGE, BLTU, BGEU (43_branches.md): nothing, taken or not. -/

namespace Sys2Proof.Machine

/-- The branch body common to R141 to R146: no effect, result `ok` (R140). -/
def branch (s : State) : Host.Outcome State Fault Refusal := .next s

/-- BEQ (R141). -/
def execBeq (c : Fields) (s : State) : Host.Outcome State Fault Refusal := branch (diagProbe (.beq c) s)

/-- BNE (R142). -/
def execBne (c : Fields) (s : State) : Host.Outcome State Fault Refusal := branch (diagProbe (.bne c) s)

/-- BLT (R143). -/
def execBlt (c : Fields) (s : State) : Host.Outcome State Fault Refusal := branch (diagProbe (.blt c) s)

/-- BGE (R144). -/
def execBge (c : Fields) (s : State) : Host.Outcome State Fault Refusal := branch (diagProbe (.bge c) s)

/-- BLTU (R145). -/
def execBltu (c : Fields) (s : State) : Host.Outcome State Fault Refusal := branch (diagProbe (.bltu c) s)

/-- BGEU (R146). -/
def execBgeu (c : Fields) (s : State) : Host.Outcome State Fault Refusal := branch (diagProbe (.bgeu c) s)

end Sys2Proof.Machine
end

