-- ==== Sys2Proof/Machine/Csr.lean ====
section
/-! DEFINITION. The CSR read-modify-write engine: CSRRW, CSRRWI, CSRRS, CSRRSI, CSRRC, CSRRCI (44_csr.md). -/

namespace Sys2Proof.Machine

/-- Snapshot, CSR write, register write, in that order (R102, R103, R105, R150). Both the read and the write are always
made (R158); `rd` receives the snapshot, never the new value. -/
def csrReadModifyWrite (f : Word → Word → Word) (operand : Word) (c : Fields) (s : State) :
    Host.Outcome State Fault Refusal :=
  let t := s.readCsr c.csr
  .next ((s.writeCsr c.csr (f t operand)).writeReg c.rd t)

/-- CSRRW (R151). -/
def execCsrrw (c : Fields) (s : State) : Host.Outcome State Fault Refusal :=
  csrReadModifyWrite csrOverwrite (registerOperand c) c (diagProbe (.csrrw c) s)

/-- CSRRWI (R152). -/
def execCsrrwi (c : Fields) (s : State) : Host.Outcome State Fault Refusal :=
  csrReadModifyWrite csrOverwrite (immediateOperand c) c (diagProbe (.csrrwi c) s)

/-- CSRRS (R153). -/
def execCsrrs (c : Fields) (s : State) : Host.Outcome State Fault Refusal :=
  csrReadModifyWrite csrSetBits (registerOperand c) c (diagProbe (.csrrs c) s)

/-- CSRRSI (R154). -/
def execCsrrsi (c : Fields) (s : State) : Host.Outcome State Fault Refusal :=
  csrReadModifyWrite csrSetBits (immediateOperand c) c (diagProbe (.csrrsi c) s)

/-- CSRRC (R155). -/
def execCsrrc (c : Fields) (s : State) : Host.Outcome State Fault Refusal :=
  csrReadModifyWrite csrClearBits (registerOperand c) c (diagProbe (.csrrc c) s)

/-- CSRRCI (R156). -/
def execCsrrci (c : Fields) (s : State) : Host.Outcome State Fault Refusal :=
  csrReadModifyWrite csrClearBits (immediateOperand c) c (diagProbe (.csrrci c) s)

end Sys2Proof.Machine
end

