-- ==== Sys2Proof/Machine/Loads.lean ====
section
/-! DEFINITION. LB, LBU, LH, LHU, LW (41_loads.md): one bus read, the load formatter, the register write. -/

namespace Sys2Proof.Machine

/-- A load of width `w` whose value `extend` widens to 32 bits. The register write comes last, and only after the read
has succeeded (R107, R108); the read is issued for `rd` = 0 too (R126). -/
def load (w : Width) (extend : BitVec w.bits → Word) (c : Fields) (s : State) : Host.Outcome State Fault Refusal :=
  match memRead w (accessAddr c) s with
  | .ok (v, s') => .next (s'.writeReg c.rd (extend v))
  | .error _ => raiseMemFault .read w (accessAddr c)

/-- LB (R121). -/
def execLb (c : Fields) (s : State) : Host.Outcome State Fault Refusal :=
  load .b1 sext32 c (diagProbe (.lb c) s)

/-- LBU (R122). -/
def execLbu (c : Fields) (s : State) : Host.Outcome State Fault Refusal :=
  load .b1 zext32 c (diagProbe (.lbu c) s)

/-- LH (R123). -/
def execLh (c : Fields) (s : State) : Host.Outcome State Fault Refusal :=
  load .b2 sext32 c (diagProbe (.lh c) s)

/-- LHU (R124). -/
def execLhu (c : Fields) (s : State) : Host.Outcome State Fault Refusal :=
  load .b2 zext32 c (diagProbe (.lhu c) s)

/-- LW (R125): zero extension of 32 bits is the identity (R12, conflict C9). -/
def execLw (c : Fields) (s : State) : Host.Outcome State Fault Refusal :=
  load .b4 zext32 c (diagProbe (.lw c) s)

end Sys2Proof.Machine
end

