-- ==== Sys2Proof/Machine/Other.lean ====
section
/-! DEFINITION. OTHER, the residual arithmetic/other class (46_other.md). -/

namespace Sys2Proof.Machine

/-- OTHER (R180): `alu_out` to `rd`, bit for bit, whatever instruction produced it (R181, R182; log 24). -/
def execOther (c : Fields) (s : State) : Host.Outcome State Fault Refusal :=
  .next ((diagProbe (.other c) s).writeReg c.rd c.aluOut)

end Sys2Proof.Machine
end

