-- ==== Sys2Proof/Machine/Stores.lean ====
section
/-! DEFINITION. SB, SH, SW (42_stores.md): one bus write of the low bytes of `rs2_data`, no register write. -/

namespace Sys2Proof.Machine

/-- A store of width `w` (R130). -/
def store (w : Width) (c : Fields) (s : State) : Host.Outcome State Fault Refusal :=
  match memWrite w (accessAddr c) (storeData w c) s with
  | .ok s' => .next s'
  | .error _ => raiseMemFault .write w (accessAddr c)

/-- SB (R131). -/
def execSb (c : Fields) (s : State) : Host.Outcome State Fault Refusal :=
  store .b1 c (diagProbe (.sb c) s)

/-- SH (R132). -/
def execSh (c : Fields) (s : State) : Host.Outcome State Fault Refusal :=
  store .b2 c (diagProbe (.sh c) s)

/-- SW (R133). -/
def execSw (c : Fields) (s : State) : Host.Outcome State Fault Refusal :=
  store .b4 c (diagProbe (.sw c) s)

end Sys2Proof.Machine
end

