-- ==== Sys2Proof/Machine/System.lean ====
section
/-! DEFINITION. ECALL, MRET, FENCE (45_system.md): the source's fixed, minimal stubs, as they are. -/

namespace Sys2Proof.Machine

/-- ECALL (R170): takes the environment-call exception and returns `ok`; no register writeback. -/
def execEcall (c : Fields) (s : State) : Host.Outcome State Fault Refusal :=
  .next (takeEnvironmentCall (diagProbe (.ecall c) s))

/-- MRET (R171): nothing. -/
def execMret (c : Fields) (s : State) : Host.Outcome State Fault Refusal :=
  .next (returnFromTrap (diagProbe (.mret c) s))

/-- FENCE (R172): nothing; one agent in program order has nothing to order (R61, R62). -/
def execFence (c : Fields) (s : State) : Host.Outcome State Fault Refusal :=
  .next (diagProbe (.fence c) s)

end Sys2Proof.Machine
end

