-- ==== Sys2Proof/Machine/Dispatch.lean ====
section
/-! DEFINITION. The exhaustive, exclusive dispatch of rule R106: one arm per class. -/

namespace Sys2Proof.Machine

/-- One writeback transaction `Writeback(cmd)` (R100), by its class's own rule. -/
def exec (i : Instr) (s : State) : Host.Outcome State Fault Refusal :=
  match i with
  | .lb c => Sys2Proof.Machine.execLb c s
  | .lbu c => Sys2Proof.Machine.execLbu c s
  | .lh c => Sys2Proof.Machine.execLh c s
  | .lhu c => Sys2Proof.Machine.execLhu c s
  | .lw c => Sys2Proof.Machine.execLw c s
  | .sb c => Sys2Proof.Machine.execSb c s
  | .sh c => Sys2Proof.Machine.execSh c s
  | .sw c => Sys2Proof.Machine.execSw c s
  | .beq c => Sys2Proof.Machine.execBeq c s
  | .bne c => Sys2Proof.Machine.execBne c s
  | .blt c => Sys2Proof.Machine.execBlt c s
  | .bge c => Sys2Proof.Machine.execBge c s
  | .bltu c => Sys2Proof.Machine.execBltu c s
  | .bgeu c => Sys2Proof.Machine.execBgeu c s
  | .csrrw c => Sys2Proof.Machine.execCsrrw c s
  | .csrrwi c => Sys2Proof.Machine.execCsrrwi c s
  | .csrrs c => Sys2Proof.Machine.execCsrrs c s
  | .csrrsi c => Sys2Proof.Machine.execCsrrsi c s
  | .csrrc c => Sys2Proof.Machine.execCsrrc c s
  | .csrrci c => Sys2Proof.Machine.execCsrrci c s
  | .ecall c => Sys2Proof.Machine.execEcall c s
  | .mret c => Sys2Proof.Machine.execMret c s
  | .fence c => Sys2Proof.Machine.execFence c s
  | .other c => Sys2Proof.Machine.execOther c s

end Sys2Proof.Machine
end

