-- ==== Sys2Proof/Machine/Step.lean ====
section
/-! DEFINITION. One step of the machine: the driver's next command, decoded and run (decision D1, rules R109, R225). -/

namespace Sys2Proof.Machine

/-- Take the next command word, decode it, run its transaction, and let the driver take the result (R194). No command: the
run is over (decision D24). A reserved code: refused (R84). -/
def step (s : State) : Host.Outcome State Fault Refusal :=
  match nextCommand s with
  | none => .refused .noCommand
  | some (w, s') =>
    match decode w with
    | .error (.reservedOp code) => .refused (.reservedOp code)
    | .ok i => driverTakes i s' (exec i s')

/-- `s` with a table row's word as the command the driver hands over next, before all the others (log 2). -/
def State.withFetchWord (s : State) (nbits w : Nat) : State :=
  s.handOver (BitVec.ofNat 150 (tableWord nbits w))

end Sys2Proof.Machine
end

