-- ==== Sys2Proof/Machine/Upstream.lean ====
section
/-! DEFINITION. An ISA-conforming upstream (rules R88, R89): how a 32-bit instruction word becomes a command. PRESUMED: the
spec marks both rules as general knowledge and informative (log 20). `step` does not use this file: the block never sees
an instruction word (R80). -/

namespace Sys2Proof.Machine

/-- One row of R88: a word belongs to the class when its masked bits match. -/
structure WordRow where
  mask : BitVec 32
  pattern : BitVec 32
  /-- A command of the class; its fields are replaced by those of the word. -/
  cls : Instr
  deriving DecidableEq, Repr

/-- Fields that only stand in for those of the word. -/
def noFields : Fields := ⟨0, 0, 0, 0, 0, 0⟩

/-- The loads and stores of R88. -/
def memoryRows : List WordRow :=
  [⟨0x0000707F, 0x00000003, .lb noFields⟩, ⟨0x0000707F, 0x00001003, .lh noFields⟩,
   ⟨0x0000707F, 0x00002003, .lw noFields⟩, ⟨0x0000707F, 0x00004003, .lbu noFields⟩,
   ⟨0x0000707F, 0x00005003, .lhu noFields⟩, ⟨0x0000707F, 0x00000023, .sb noFields⟩,
   ⟨0x0000707F, 0x00001023, .sh noFields⟩, ⟨0x0000707F, 0x00002023, .sw noFields⟩]

/-- The branches of R88. -/
def branchRows : List WordRow :=
  [⟨0x0000707F, 0x00000063, .beq noFields⟩, ⟨0x0000707F, 0x00001063, .bne noFields⟩,
   ⟨0x0000707F, 0x00004063, .blt noFields⟩, ⟨0x0000707F, 0x00005063, .bge noFields⟩,
   ⟨0x0000707F, 0x00006063, .bltu noFields⟩, ⟨0x0000707F, 0x00007063, .bgeu noFields⟩]

/-- The CSR and system words of R88. -/
def systemRows : List WordRow :=
  [⟨0x0000707F, 0x00001073, .csrrw noFields⟩, ⟨0x0000707F, 0x00002073, .csrrs noFields⟩,
   ⟨0x0000707F, 0x00003073, .csrrc noFields⟩, ⟨0x0000707F, 0x00005073, .csrrwi noFields⟩,
   ⟨0x0000707F, 0x00006073, .csrrsi noFields⟩, ⟨0x0000707F, 0x00007073, .csrrci noFields⟩,
   ⟨0xFFFFFFFF, 0x00000073, .ecall noFields⟩, ⟨0xFFFFFFFF, 0x30200073, .mret noFields⟩,
   ⟨0x0000707F, 0x0000000F, .fence noFields⟩]

/-- The residual class of R88: LUI, AUIPC, JAL, JALR, OP-IMM, OP by their opcode bits. DESIGN CHOICE (log 20): whether an
upstream accepts every word of them, the M extension among them, is left open (R181, N10). -/
def otherRows : List WordRow :=
  [⟨0x0000007F, 0x00000037, .other noFields⟩, ⟨0x0000007F, 0x00000017, .other noFields⟩,
   ⟨0x0000007F, 0x0000006F, .other noFields⟩, ⟨0x0000007F, 0x00000067, .other noFields⟩,
   ⟨0x0000007F, 0x00000013, .other noFields⟩, ⟨0x0000007F, 0x00000033, .other noFields⟩]

/-- The whole table of R88. -/
def wordRows : List WordRow := memoryRows ++ branchRows ++ systemRows ++ otherRows

/-- Whether a word is of a row's form. -/
def WordRow.fits (r : WordRow) (word : BitVec 32) : Bool := word &&& r.mask == r.pattern

/-- `alu_out` as R89 gives it: the effective address of a load or store; for every other class the execute stage's
`result`, which this spec does not compute (R5, R182; log 24). -/
def upstreamAluOut (word : BitVec 32) (rs1Value result : Word) : Word :=
  if word.extractLsb' 0 7 = 0x03 then rs1Value + (word.extractLsb' 20 12).signExtend 32
  else if word.extractLsb' 0 7 = 0x23 then
    rs1Value + (word.extractLsb' 25 7 ++ word.extractLsb' 7 5).signExtend 32
  else result

/-- The fields of a word's command, its register operands read from the state (R89). -/
def upstreamFields (word : BitVec 32) (result : Word) (s : State) : Fields :=
  let rs1Value := s.readReg (word.extractLsb' 15 5)
  { rd := word.extractLsb' 7 5
    csr := word.extractLsb' 20 12
    immZ := (word.extractLsb' 15 5).setWidth 32
    rs1Data := rs1Value
    rs2Data := s.readReg (word.extractLsb' 20 5)
    aluOut := upstreamAluOut word rs1Value result }

/-- The instruction word that a fetch through the shared bus finds at an address of RAM (R64; decisions D7, D15). -/
def upstreamFetch (s : State) (a : Word) : BitVec 32 := s.ramValue .b4 a

/-- The command an ISA-conforming upstream forms from an instruction word, `none` where it decodes to no class (R86).
DESIGN CHOICE (log 26): a word that fits no row of R88 decodes to no class. So do EBREAK, WFI, SRET, URET, SFENCE.VMA and
FENCE.I, of which the spec leaves open whether an upstream decodes them, and then as OTHER (R173, R181, N10, N18). -/
def upstreamCommand (word : BitVec 32) (result : Word) (s : State) : Option Instr :=
  (wordRows.find? (fun r => r.fits word)).map (fun r => r.cls.withFields (upstreamFields word result s))

end Sys2Proof.Machine
end

