-- ==== Sys2Proof/Machine/Writeback.lean ====
section
/-! DEFINITION. The master pseudocode of rule R100, phase by phase, with the result of rule R14 and the state a transaction
leaves, also after a fault. `exec` is written from the class rules; that the two agree is an obligation. -/

namespace Sys2Proof.Machine

/-- The result of a transaction (R14). -/
inductive WbResult where
  | ok
  | fault (dir : Dir) (width : Width) (addr : Word)
  deriving DecidableEq, Repr

/-- Phase 2: the CSR write, CSR classes only, from the snapshot `t` (R103). -/
def csrPhase (i : Instr) (t : Word) (s : State) : State :=
  match i with
  | .csrrw c => s.writeCsr c.csr c.rs1Data
  | .csrrwi c => s.writeCsr c.csr c.immZ
  | .csrrs c => s.writeCsr c.csr (t ||| c.rs1Data)
  | .csrrsi c => s.writeCsr c.csr (t ||| c.immZ)
  | .csrrc c => s.writeCsr c.csr (t &&& ~~~c.rs1Data)
  | .csrrci c => s.writeCsr c.csr (t &&& ~~~c.immZ)
  | .lb _ => s
  | .lbu _ => s
  | .lh _ => s
  | .lhu _ => s
  | .lw _ => s
  | .sb _ => s
  | .sh _ => s
  | .sw _ => s
  | .beq _ => s
  | .bne _ => s
  | .blt _ => s
  | .bge _ => s
  | .bltu _ => s
  | .bgeu _ => s
  | .ecall _ => s
  | .mret _ => s
  | .fence _ => s
  | .other _ => s

/-- Phase 3 of a load class (R104). -/
def loadPhase (w : Width) (extend : BitVec w.bits → Word) (c : Fields) (s : State) : State × WbResult :=
  match memRead w c.aluOut s with
  | .ok (v, s') => (s'.writeReg c.rd (extend v), .ok)
  | .error _ => (s, .fault .read w c.aluOut)

/-- Phase 3 of a store class (R104). -/
def storePhase (w : Width) (c : Fields) (s : State) : State × WbResult :=
  match memWrite w c.aluOut (c.rs2Data.setWidth w.bits) s with
  | .ok s' => (s', .ok)
  | .error _ => (s, .fault .write w c.aluOut)

/-- Phase 3: the register and memory writeback, dispatched on the class (R104). -/
def memoryPhase (i : Instr) (t : Word) (s : State) : State × WbResult :=
  match i with
  | .lb c => loadPhase .b1 sext32 c s
  | .lbu c => loadPhase .b1 zext32 c s
  | .lh c => loadPhase .b2 sext32 c s
  | .lhu c => loadPhase .b2 zext32 c s
  | .lw c => loadPhase .b4 id c s
  | .sb c => storePhase .b1 c s
  | .sh c => storePhase .b2 c s
  | .sw c => storePhase .b4 c s
  | .beq _ => (s, .ok)
  | .bne _ => (s, .ok)
  | .blt _ => (s, .ok)
  | .bge _ => (s, .ok)
  | .bltu _ => (s, .ok)
  | .bgeu _ => (s, .ok)
  | .csrrw c => (s.writeReg c.rd t, .ok)
  | .csrrwi c => (s.writeReg c.rd t, .ok)
  | .csrrs c => (s.writeReg c.rd t, .ok)
  | .csrrsi c => (s.writeReg c.rd t, .ok)
  | .csrrc c => (s.writeReg c.rd t, .ok)
  | .csrrci c => (s.writeReg c.rd t, .ok)
  | .ecall _ => (s.writeCsr s.cfg.ecallCauseCsr s.cfg.ecallCauseCode, .ok)
  | .mret _ => (s, .ok)
  | .fence _ => (s, .ok)
  | .other c => (s.writeReg c.rd c.aluOut, .ok)

/-- `Writeback(cmd)` (R100): probe, snapshot for every class, CSR write, register or memory writeback. -/
def writeback (i : Instr) (s : State) : State × WbResult :=
  let s₀ := diagProbe i s
  let t := s₀.readCsr i.fields.csr
  memoryPhase i t (csrPhase i t s₀)

/-- A result with the state it leaves, as an outcome of `exec`: what the block hands the driver (R14, R194). -/
def outcomeOf (r : State × WbResult) : Host.Outcome State Fault Refusal :=
  match r.2 with
  | .ok => .next r.1
  | .fault dir w a => .fault (.writebackMem dir w a)

end Sys2Proof.Machine
end

