-- ==== Sys2Proof/Safety.lean ====
section
/-! DEFINITION. The terms that claims use: the invariant, which class reads and writes what, and what an access touches. -/

namespace Sys2Proof.Machine

/-- The states a run can reach: the cell behind register 0 holds 0 (R21), the CSR bank lists each mapped address once
(R24), memory is in its canonical form. -/
abbrev State.Inv (s : State) : Prop :=
  s.x[0] = 0 ∧ CsrBank.wf s.csr ∧ Memory.wf s.mem

/-- Whether `b` is one of the bytes of an access of width `w` at `a`, counted modulo 2^32 (R55). -/
abbrev inAccess (w : Width) (a b : Word) : Prop := (b - a).toNat < w.bytes

/-- The rows of the tables of R29 and R104: what a class reads and may change depends on its family alone. -/
inductive Family where
  /-- LB, LBU, LH, LHU, LW, by width and whether the value is sign-extended (R57, R121 to R125). -/
  | load (w : Width) (signed : Bool)
  /-- SB, SH, SW, by width (R57). -/
  | store (w : Width)
  | branch
  /-- CSRRW, CSRRS, CSRRC. -/
  | csrRegister
  /-- CSRRWI, CSRRSI, CSRRCI. -/
  | csrImmediate
  | environmentCall
  | trapReturn
  | memoryFence
  | residual
  deriving DecidableEq, Repr

/-- The family of each class. -/
def family : Instr → Family
  | .lb _ => .load .b1 true
  | .lbu _ => .load .b1 false
  | .lh _ => .load .b2 true
  | .lhu _ => .load .b2 false
  | .lw _ => .load .b4 false
  | .sb _ => .store .b1
  | .sh _ => .store .b2
  | .sw _ => .store .b4
  | .beq _ => .branch
  | .bne _ => .branch
  | .blt _ => .branch
  | .bge _ => .branch
  | .bltu _ => .branch
  | .bgeu _ => .branch
  | .csrrw _ => .csrRegister
  | .csrrwi _ => .csrImmediate
  | .csrrs _ => .csrRegister
  | .csrrsi _ => .csrImmediate
  | .csrrc _ => .csrRegister
  | .csrrci _ => .csrImmediate
  | .ecall _ => .environmentCall
  | .mret _ => .trapReturn
  | .fence _ => .memoryFence
  | .other _ => .residual

/-- The one bus access of a class, `none` for the classes that never touch the bus (R57). -/
def accessForm (i : Instr) : Option (Dir × Width) :=
  match family i with
  | .load w _ => some (.read, w)
  | .store w => some (.write, w)
  | .branch => none
  | .csrRegister => none
  | .csrImmediate => none
  | .environmentCall => none
  | .trapReturn => none
  | .memoryFence => none
  | .residual => none

/-- The classes that issue a register write: loads, CSR classes, OTHER (R23). -/
def writesRegister (i : Instr) : Bool :=
  match family i with
  | .load _ _ => true
  | .store _ => false
  | .branch => false
  | .csrRegister => true
  | .csrImmediate => true
  | .environmentCall => false
  | .trapReturn => false
  | .memoryFence => false
  | .residual => true

/-- The CSR address a class writes, `none` for the classes that write no CSR (R104). -/
def csrWritten (i : Instr) (cfg : Config) : Option CsrAddr :=
  match family i with
  | .load _ _ => none
  | .store _ => none
  | .branch => none
  | .csrRegister => some i.fields.csr
  | .csrImmediate => some i.fields.csr
  | .environmentCall => some cfg.ecallCauseCsr
  | .trapReturn => none
  | .memoryFence => none
  | .residual => none

/-- The value a class writes to the CSR of `csrWritten` (R103, R170), from the state before it. -/
def csrValue (i : Instr) (s : State) : Option Word :=
  match i with
  | .csrrw c => some c.rs1Data
  | .csrrwi c => some c.immZ
  | .csrrs c => some (s.readCsr c.csr ||| c.rs1Data)
  | .csrrsi c => some (s.readCsr c.csr ||| c.immZ)
  | .csrrc c => some (s.readCsr c.csr &&& ~~~c.rs1Data)
  | .csrrci c => some (s.readCsr c.csr &&& ~~~c.immZ)
  | .ecall _ => some s.cfg.ecallCauseCode
  | .lb _ | .lbu _ | .lh _ | .lhu _ | .lw _ | .sb _ | .sh _ | .sw _ | .beq _ | .bne _ | .blt _ | .bge _ | .bltu _
  | .bgeu _ | .mret _ | .fence _ | .other _ => none

/-- Widening a loaded value to 32 bits by replicating its sign bit or padding with zeros (R12). -/
def loadExtend (signed : Bool) {n : Nat} (v : BitVec n) : Word :=
  if signed then v.signExtend 32 else v.setWidth 32

/-- The value a class writes to `rd` (R104), from the state before it, `none` for a class that writes no register and for a
load that the bus refuses: a load's is its widened RAM value or the free answer of a peripheral (log 11). -/
def registerValue (i : Instr) (s : State) : Option Word :=
  match family i with
  | .load w signed =>
    match Config.target s.cfg .read w i.fields.aluOut with
    | none => none
    | some .ram => some (loadExtend signed (s.ramValue w i.fields.aluOut))
    | some .device => some (loadExtend signed ((diagProbe i s).deviceValue w i.fields.aluOut))
  | .csrRegister => some (s.readCsr i.fields.csr)
  | .csrImmediate => some (s.readCsr i.fields.csr)
  | .residual => some i.fields.aluOut
  | .store _ => none
  | .branch => none
  | .environmentCall => none
  | .trapReturn => none
  | .memoryFence => none

/-- Which operand fields a class reads (R29), `op` apart. -/
structure Reads where
  rd : Bool
  csr : Bool
  immZ : Bool
  rs1Data : Bool
  rs2Data : Bool
  aluOut : Bool
  deriving DecidableEq, Repr

/-- The class reads no operand field. -/
def Reads.nothing : Reads := ⟨false, false, false, false, false, false⟩

/-- The table of R29. -/
def readsOf (i : Instr) : Reads :=
  match family i with
  | .load _ _ => { Reads.nothing with aluOut := true, rd := true }
  | .store _ => { Reads.nothing with aluOut := true, rs2Data := true }
  | .branch => Reads.nothing
  | .csrRegister => { Reads.nothing with csr := true, rs1Data := true, rd := true }
  | .csrImmediate => { Reads.nothing with csr := true, immZ := true, rd := true }
  | .environmentCall => Reads.nothing
  | .trapReturn => Reads.nothing
  | .memoryFence => Reads.nothing
  | .residual => { Reads.nothing with aluOut := true, rd := true }

/-- Two operand records agree on the fields that are read. -/
abbrev agreeOn (r : Reads) (c d : Fields) : Prop :=
  (r.rd = true → c.rd = d.rd) ∧ (r.csr = true → c.csr = d.csr) ∧ (r.immZ = true → c.immZ = d.immZ) ∧
  (r.rs1Data = true → c.rs1Data = d.rs1Data) ∧ (r.rs2Data = true → c.rs2Data = d.rs2Data) ∧
  (r.aluOut = true → c.aluOut = d.aluOut)

/-- Nothing outside the register file, the CSR bank, memory and the peripherals differs. -/
abbrev sameMachine (s t : State) : Prop := t.cfg = s.cfg ∧ t.commands = s.commands

/-- Every register but `rd` reads as before; with `rd` = 0 the whole register file is as before (R107). -/
abbrev onlyRegister (rd : RegIndex) (s t : State) : Prop :=
  (∀ j, j ≠ rd → t.readReg j = s.readReg j) ∧ (rd = 0 → t.x = s.x)

/-- Every CSR but `a` reads as before and is mapped as before. -/
abbrev onlyCsr (a : CsrAddr) (s t : State) : Prop :=
  ∀ b, b ≠ a → t.readCsr b = s.readCsr b ∧ t.csrMapped b = s.csrMapped b

/-- A class with no effect: it answers a next state in which every register, every CSR and every byte of memory is as
before, the peripherals have seen the probe of phase 0 at most, and without the probe nothing at all has changed. -/
abbrev hasNoEffect (i : Instr) (s : State) : Prop :=
  ∃ t, exec i s = .next t ∧ t.x = s.x ∧ t.csr = s.csr ∧ t.mem = s.mem ∧ sameMachine s t ∧
    t.devices = (diagProbe i s).devices ∧ (s.cfg.diagProbe = none → t = s)

/-- The rule of a load class as 41_loads.md writes it: code, `MemRead` at `alu_out`, the widened value to `rd`, or the fault;
and its frame. `widen` is the rule's extension. -/
def loadPseudocode (mk : Fields → Instr) (code : BitVec 5) (w : Width) (widen : BitVec w.bits → Word) : Prop :=
  ∀ (c : Fields) (s : State), opCode (mk c) = code ∧
    (∀ v s', memRead w c.aluOut (diagProbe (mk c) s) = .ok (v, s') →
      ∃ t, exec (mk c) s = .next t ∧ (c.rd ≠ 0 → t.readReg c.rd = widen v) ∧ onlyRegister c.rd s t ∧
        t.csr = s.csr ∧ t.mem = s.mem ∧ sameMachine s t ∧ t.devices = s'.devices) ∧
    (∀ e, memRead w c.aluOut (diagProbe (mk c) s) = .error e →
      exec (mk c) s = .fault (.writebackMem .read w c.aluOut))

/-- The rule of a store class as 42_stores.md writes it: code, `MemWrite` of the low bytes of `rs2_data` at `alu_out` and
nothing else, or the fault; no register and no CSR is written. -/
def storePseudocode (mk : Fields → Instr) (code : BitVec 5) (w : Width) : Prop :=
  ∀ (c : Fields) (s : State), opCode (mk c) = code ∧
    (∀ s', memWrite w c.aluOut (c.rs2Data.extractLsb' 0 w.bits) (diagProbe (mk c) s) = .ok s' →
      exec (mk c) s = .next s' ∧ s'.x = s.x ∧ s'.csr = s.csr ∧ sameMachine s s') ∧
    (∀ e, memWrite w c.aluOut (c.rs2Data.extractLsb' 0 w.bits) (diagProbe (mk c) s) = .error e →
      exec (mk c) s = .fault (.writebackMem .write w c.aluOut))

/-- A load class of width `w` (R121 to R125), by what answers behind its address (log 9, log 11): the fault where the bus admits
the read nowhere; the widened RAM value; the widened answer of a peripheral, which sees exactly this one read, also
for `rd` = 0 (R126). Its frame: everything but `rd`. -/
def loadRule (mk : Fields → Instr) (w : Width) (signed : Bool) : Prop :=
  ∀ (c : Fields) (s : State),
    (Config.target s.cfg .read w c.aluOut = none →
      exec (mk c) s = .fault (.writebackMem .read w c.aluOut)) ∧
    (Config.target s.cfg .read w c.aluOut = some .ram →
      ∃ t, exec (mk c) s = .next t ∧
        (c.rd ≠ 0 → t.readReg c.rd = loadExtend signed (s.ramValue w c.aluOut)) ∧
        onlyRegister c.rd s t ∧ t.csr = s.csr ∧ t.mem = s.mem ∧ sameMachine s t ∧
        t.devices = (diagProbe (mk c) s).devices) ∧
    (Config.target s.cfg .read w c.aluOut = some .device →
      ∃ t, exec (mk c) s = .next t ∧
        (c.rd ≠ 0 → t.readReg c.rd = loadExtend signed ((diagProbe (mk c) s).deviceValue w c.aluOut)) ∧
        onlyRegister c.rd s t ∧ t.csr = s.csr ∧ t.mem = s.mem ∧ sameMachine s t ∧
        t.devices = (diagProbe (mk c) s).devices ++
          [⟨.read, w, c.aluOut, ((diagProbe (mk c) s).deviceValue w c.aluOut).setWidth 32⟩])

/-- A store class of width `w` (R131 to R133), by what answers behind its address (log 9, log 11): the fault where the bus admits
the write nowhere; the low bytes of `rs2_data` in RAM, byte `k` at its place in the byte order, every byte outside the
access as before; or one write that the peripheral sees. Its frame: no register, no CSR. -/
def storeRule (mk : Fields → Instr) (w : Width) : Prop :=
  ∀ (c : Fields) (s : State),
    (Config.target s.cfg .write w (accessAddr c) = none →
      exec (mk c) s = .fault (.writebackMem .write w (accessAddr c))) ∧
    (Config.target s.cfg .write w (accessAddr c) = some .ram → s.Inv →
      ∃ t, exec (mk c) s = .next t ∧
        (∀ k, k < w.bytes →
          t.byteAt (byteAddr s.cfg.byteOrder w (accessAddr c) k) = c.rs2Data.extractLsb' (8 * k) 8) ∧
        (∀ b, ¬ inAccess w (accessAddr c) b → t.byteAt b = s.byteAt b) ∧
        t.x = s.x ∧ t.csr = s.csr ∧ sameMachine s t ∧ t.devices = (diagProbe (mk c) s).devices) ∧
    (Config.target s.cfg .write w (accessAddr c) = some .device →
      ∃ t, exec (mk c) s = .next t ∧ t.mem = s.mem ∧
        t.x = s.x ∧ t.csr = s.csr ∧ sameMachine s t ∧
        t.devices = (diagProbe (mk c) s).devices ++
          [⟨.write, w, accessAddr c, (c.rs2Data.setWidth w.bits).setWidth 32⟩])

/-- A CSR class (R150 to R160): it always completes; the CSR receives `f` of its old value and the operand and is mapped,
`rd` receives the old value, and nothing else changes. -/
def csrRule (mk : Fields → Instr) (code : BitVec 5) (f : Word → Word → Word) (operand : Fields → Word) : Prop :=
  ∀ (c : Fields) (s : State), opCode (mk c) = code ∧
    ∃ t, exec (mk c) s = .next t ∧
      t.readCsr c.csr = f (s.readCsr c.csr) (operand c) ∧ t.csrMapped c.csr = true ∧
      (c.rd ≠ 0 → t.readReg c.rd = s.readCsr c.csr) ∧
      onlyRegister c.rd s t ∧ onlyCsr c.csr s t ∧ t.mem = s.mem ∧ sameMachine s t ∧
      t.devices = (diagProbe (mk c) s).devices

end Sys2Proof.Machine
end

