-- ==== Sys2Proof/Certificates/Slice0/Obligations.lean ====
section
/-! DEFINITION. The statements for the provers. The terms they use stand in Safety.lean. -/

open Sys2Proof Sys2Proof.Machine

/-! ### The input: command words, decoding, one step -/

/-- No bit of a command is lost: decoding its word gives it back, for all 24 classes and every operand value
(30_encoding.md, R81 and R82; the layout and the codes are the spec's decisions D2 and D3, log 4). -/
def Obligations.EncodeThenDecodeGivesTheCommandBack : Prop :=
  ∀ i : Instr, decode (encode i) = .ok i

/-- Each command word has one meaning: a word that decodes is the encoding of what it decodes to (R81, R82; log 4). -/
def Obligations.DecodeThenEncodeGivesTheWordBack : Prop :=
  ∀ (w : CommandWord) (i : Instr), decode w = .ok i → encode i = w

/-- The fields of a decoded command are the bits R81 names, and its class has the code in bits 4:0 (R81, R82; log 4). -/
def Obligations.DecodedFieldsStandAtTheirBits : Prop :=
  ∀ (w : CommandWord) (i : Instr), decode w = .ok i →
    (opCode i).toNat = w.toNat % 2 ^ 5 ∧ i.fields.rd.toNat = w.toNat / 2 ^ 5 % 2 ^ 5 ∧
    i.fields.csr.toNat = w.toNat / 2 ^ 10 % 2 ^ 12 ∧ i.fields.immZ.toNat = w.toNat / 2 ^ 22 % 2 ^ 32 ∧
    i.fields.rs1Data.toNat = w.toNat / 2 ^ 54 % 2 ^ 32 ∧ i.fields.rs2Data.toNat = w.toNat / 2 ^ 86 % 2 ^ 32 ∧
    i.fields.aluOut.toNat = w.toNat / 2 ^ 118

/-- Codes 24 to 31 select no class: the decoder rejects them and a machine handed one refuses; every other word decodes
(30_encoding.md R84, 70_reset_and_hazards.md R225; decision D4, log 4). -/
def Obligations.ReservedCodesAndOnlyTheyAreRefused : Prop :=
  ∀ w : CommandWord,
    (24 ≤ (opField w).toNat → decode w = .error (.reservedOp (opField w)) ∧
      ∀ s : State, step (s.handOver w) = .refused (.reservedOp (opField w))) ∧
    ((opField w).toNat < 24 → ∃ i, decode w = .ok i)

/-- Five words of 95_test_vectors.md (section 2.7 E1, E3, E4, E5 and the store of S8) decode to the commands the spec
gives them (the layout is decision D2, log 4). -/
def Obligations.CommandWordsOfTheSpecDecode : Prop :=
  decode 0x000004000000000000000000000000000000A0 = .ok (.lb ⟨5, 0, 0, 0, 0, 0x00001000⟩) ∧
  decode 0x000000000000000032BF8000000000024D012E = .ok (.csrrw ⟨9, 0x340, 9, 0xCAFE0000, 0, 0⟩) ∧
  decode 0x3FFFFFFFFFFFFFFFFFFFFFFFFFFFFFFFFFFFF7 =
    .ok (.other ⟨31, 0xFFF, 0xFFFFFFFF, 0xFFFFFFFF, 0xFFFFFFFF, 0xFFFFFFFF⟩) ∧
  decode 0x00000000000000000000000000000000000014 = .ok (.ecall ⟨0, 0, 0, 0, 0, 0⟩) ∧
  decode 0x00000400048D159E0000000000000000000007 = .ok (.sw ⟨0, 0, 0, 0, 0x12345678, 0x00001000⟩)

/-- A step runs the decoded command: the driver's next word, taken off its stream, decoded and executed, and the driver takes
the result, which it changes only where it is a fault and `ON_FAULT` is not to end the run; with no command left the run is
over (decisions D1, D13, D16, D24; the command stream is the model's own field, log 2; log 14). -/
def Obligations.StepRunsTheDriversNextCommand : Prop :=
  (∀ (s : State) (w : CommandWord) (rest : List CommandWord) (i : Instr), s.commands = w :: rest → decode w = .ok i →
    step s = driverTakes i { s with commands := rest } (exec i { s with commands := rest }) ∧
    ((s.cfg.onFault = .endRun ∨ ∃ t, exec i { s with commands := rest } = .next t) →
      step s = exec i { s with commands := rest })) ∧
  (∀ s : State, s.commands = [] → step s = .refused .noCommand)

/-- A table row's word handed over in any state is what the next step runs, in that state, with what the driver makes of the
result (log 2, log 5, log 14). -/
def Obligations.StepRunsTheWordHandedOver : Prop :=
  ∀ (s : State) (nbits w : Nat) (i : Instr),
    decodeTableWord nbits w = some i → step (s.withFetchWord nbits w) = driverTakes i s (exec i s)

/-! ### The register file -/

/-- R21, R22: register 0 reads zero in every state, a write to it changes nothing, and no transaction touches even the
cell behind it. -/
def Obligations.RegisterZeroIsHardwired : Prop :=
  (∀ (s : State) (v : Word), s.readReg 0 = 0 ∧ s.writeReg 0 v = s) ∧
  ∀ (i : Instr) (s t : State), exec i s = .next t → t.readReg 0 = 0 ∧ t.x[0] = s.x[0]

/-- R23: which classes issue a register write, always to `rd` and at most one; the twelve others leave the register
file alone whatever `rd` holds. -/
def Obligations.OnlyTheListedClassesWriteTheirDestination : Prop :=
  ∀ (i : Instr) (s t : State), exec i s = .next t →
    onlyRegister i.fields.rd s t ∧ (writesRegister i = false → t.x = s.x)

/-- R23: "the block never calls read(index)". What a transaction does to the CSR bank, to memory and to the peripherals,
and whether it faults, does not depend on the register file. -/
def Obligations.NoTransactionReadsTheRegisterFile : Prop :=
  ∀ (i : Instr) (s : State) (xs : Vector Word 32),
    (∀ f, exec i s = .fault f → exec i { s with x := xs } = .fault f) ∧
    (∀ t, exec i s = .next t → ∃ u, exec i { s with x := xs } = .next u ∧
      u.csr = t.csr ∧ u.mem = t.mem ∧ u.devices = t.devices ∧
      (i.fields.rd ≠ 0 → writesRegister i = true → u.readReg i.fields.rd = t.readReg i.fields.rd))

/-! ### The CSR bank -/

/-- R25, R26: an unmapped CSR reads 0; after a write the CSR reads exactly the 32 bits written, every other CSR is as
before, and nothing outside the bank has changed. -/
def Obligations.CsrIsPlainStorage : Prop :=
  ∀ (s : State) (a : CsrAddr) (v : Word),
    (s.csrMapped a = false → s.readCsr a = 0) ∧
    (s.writeCsr a v).readCsr a = v ∧ (s.writeCsr a v).csrMapped a = true ∧ onlyCsr a s (s.writeCsr a v) ∧
    (s.writeCsr a v).x = s.x ∧ (s.writeCsr a v).mem = s.mem ∧ (s.writeCsr a v).devices = s.devices ∧
    sameMachine s (s.writeCsr a v)

/-- R151, R152: CSRRW and CSRRWI overwrite the CSR with the operand; `rd` receives the old value. -/
def Obligations.CsrReadAndWrite : Prop :=
  csrRule .csrrw 14 (fun _ m => m) Fields.rs1Data ∧ csrRule .csrrwi 15 (fun _ m => m) Fields.immZ

/-- R153, R154: CSRRS and CSRRSI set the operand's bits in the CSR; `rd` receives the old value. -/
def Obligations.CsrReadAndSetBits : Prop :=
  csrRule .csrrs 16 (fun t m => t ||| m) Fields.rs1Data ∧ csrRule .csrrsi 17 (fun t m => t ||| m) Fields.immZ

/-- R155, R156: CSRRC and CSRRCI clear the operand's bits in the CSR; `rd` receives the old value. -/
def Obligations.CsrReadAndClearBits : Prop :=
  csrRule .csrrc 18 (fun t m => t &&& ~~~m) Fields.rs1Data ∧ csrRule .csrrci 19 (fun t m => t &&& ~~~m) Fields.immZ

/-- R159: the immediate forms are the register forms with `imm_z` for `rs1_data`; with `imm_z` at most 31 CSRRSI and
CSRRCI leave bits 31:5 of the CSR alone and CSRRWI leaves them zero. Without the probe, as all the spec's rules. -/
def Obligations.CsrImmediateFormsAreRegisterForms : Prop :=
  ∀ (c : Fields) (s : State), s.cfg.diagProbe = none →
    exec (.csrrwi c) s = exec (.csrrw { c with rs1Data := c.immZ }) s ∧
    exec (.csrrsi c) s = exec (.csrrs { c with rs1Data := c.immZ }) s ∧
    exec (.csrrci c) s = exec (.csrrc { c with rs1Data := c.immZ }) s ∧
    (c.immZ.toNat ≤ 31 → ∀ t,
      (exec (.csrrwi c) s = .next t → t.readCsr c.csr >>> 5 = 0) ∧
      (exec (.csrrsi c) s = .next t → t.readCsr c.csr >>> 5 = s.readCsr c.csr >>> 5) ∧
      (exec (.csrrci c) s = .next t → t.readCsr c.csr >>> 5 = s.readCsr c.csr >>> 5))

/-! ### Loads and stores -/

/-- R121 to R125: the five load classes as their pseudocode says, register write and fault both. -/
def Obligations.LoadClassesFollowTheirPseudocode : Prop :=
  loadPseudocode .lb 0 .b1 (fun v => v.signExtend 32) ∧ loadPseudocode .lbu 1 .b1 (fun v => v.setWidth 32) ∧
  loadPseudocode .lh 2 .b2 (fun v => v.signExtend 32) ∧ loadPseudocode .lhu 3 .b2 (fun v => v.setWidth 32) ∧
  loadPseudocode .lw 4 .b4 (fun v => v)

/-- R131 to R133: the three store classes as their pseudocode says, the write and the fault both. -/
def Obligations.StoreClassesFollowTheirPseudocode : Prop :=
  storePseudocode .sb 5 .b1 ∧ storePseudocode .sh 6 .b2 ∧ storePseudocode .sw 7 .b4

/-- 41_loads.md with 20_memory.md R55 to R58: each load by what answers behind its address, RAM, a peripheral (whose answer is
a free value, log 11) or nothing (the map's form is log 9), with its frame. -/
def Obligations.LoadsFromRamAndPeripherals : Prop :=
  loadRule .lb .b1 true ∧ loadRule .lbu .b1 false ∧ loadRule .lh .b2 true ∧ loadRule .lhu .b2 false ∧
  loadRule .lw .b4 false

/-- 42_stores.md with 20_memory.md R55 to R58: each store by what answers behind its address, RAM, a peripheral (log 11) or
nothing (log 9), which bytes it changes, and its frame. -/
def Obligations.StoresToRamAndPeripherals : Prop :=
  storeRule .sb .b1 ∧ storeRule .sh .b2 ∧ storeRule .sw .b4

/-- 20_memory.md R56, R58: a load or store completes exactly where the bus admits its access, whatever the alignment. -/
def Obligations.AccessCompletesExactlyWhereAdmitted : Prop :=
  ∀ (i : Instr) (s : State) (dir : Dir) (w : Width), accessForm i = some (dir, w) →
    ((∃ t, exec i s = .next t) ↔ Config.target s.cfg dir w i.fields.aluOut ≠ none)

/-- R12, for the extensions that LB, LBU, LH, LHU and LW use: sign extension replicates bit W-1, zero extension pads with
zeros. -/
def Obligations.ExtensionReplicatesOrPads : Prop :=
  ∀ (n : Nat) (v : BitVec n) (i : Nat), 0 < n → n ≤ 32 → i < 32 →
    (sext32 v).getLsbD i = (if i < n then v.getLsbD i else v.getLsbD (n - 1)) ∧
    (zext32 v).getLsbD i = (if i < n then v.getLsbD i else false)

/-- 20_memory.md R55 (decision D7, log 8): which byte of memory is which byte of a value, for both settings of the
parameter; and what narrower reads see after a wider little-endian write. -/
def Obligations.ByteOrderOfWideValues : Prop :=
  (∀ (s : State) (a : Word), s.ramValue .b1 a = s.byteAt a ∧
    (s.cfg.byteOrder = .little →
      s.ramValue .b2 a = s.byteAt (a + 1) ++ s.byteAt a ∧
      s.ramValue .b4 a = s.byteAt (a + 3) ++ s.byteAt (a + 2) ++ s.byteAt (a + 1) ++ s.byteAt a) ∧
    (s.cfg.byteOrder = .big →
      s.ramValue .b2 a = s.byteAt a ++ s.byteAt (a + 1) ∧
      s.ramValue .b4 a = s.byteAt a ++ s.byteAt (a + 1) ++ s.byteAt (a + 2) ++ s.byteAt (a + 3))) ∧
  (∀ (s : State) (a v : Word), s.Inv → s.cfg.byteOrder = .little →
    (s.writeRam .b4 a v).ramValue .b1 a = v.extractLsb' 0 8 ∧
    (s.writeRam .b4 a v).ramValue .b2 (a + 2) = v.extractLsb' 16 16)

/-- 20_memory.md R59: a word stored with SW to RAM and loaded with LW from the same address comes back unchanged; SH then
LHU and SB then LBU give the zero-extended low half-word and byte; for every address and either byte order. -/
def Obligations.StoreThenLoadReturnsTheStoredValue : Prop :=
  ∀ (c d : Fields) (s t : State), s.Inv → d.aluOut = c.aluOut → d.rd ≠ 0 →
    (Config.target s.cfg .write .b4 c.aluOut = some .ram → Config.target s.cfg .read .b4 c.aluOut = some .ram →
      exec (.sw c) s = .next t → ∃ u, exec (.lw d) t = .next u ∧ u.readReg d.rd = c.rs2Data) ∧
    (Config.target s.cfg .write .b2 c.aluOut = some .ram → Config.target s.cfg .read .b2 c.aluOut = some .ram →
      exec (.sh c) s = .next t →
      ∃ u, exec (.lhu d) t = .next u ∧ u.readReg d.rd = (c.rs2Data.extractLsb' 0 16).setWidth 32) ∧
    (Config.target s.cfg .write .b1 c.aluOut = some .ram → Config.target s.cfg .read .b1 c.aluOut = some .ram →
      exec (.sb c) s = .next t →
      ∃ u, exec (.lbu d) t = .next u ∧ u.readReg d.rd = (c.rs2Data.extractLsb' 0 8).setWidth 32)

/-- 95_test_vectors.md, decisions D8 and D9 (log 9): what the reference `BusAdmits` admits, for every direction, width and
address: naturally aligned accesses within RAM bytes 0x1000 to 0x1FFF, and nothing else. -/
def Obligations.ReferenceMapAdmitsAlignedRamOnly : Prop :=
  ∀ (dir : Dir) (w : Width) (a : Word),
    Config.target Config.reference dir w a =
      if 0x1000 ≤ a.toNat ∧ a.toNat + w.bytes ≤ 0x2000 ∧ a.toNat % w.bytes = 0 then some .ram else none

/-! ### Classes without effect, system classes, the residual class -/

/-- R140 to R146: each of the six branches, with arbitrary command and state, completes and does nothing. -/
def Obligations.BranchesDoNothing : Prop :=
  ∀ (c : Fields) (s : State),
    (∀ i ∈ [Instr.beq c, .bne c, .blt c, .bge c, .bltu c, .bgeu c], hasNoEffect i s) ∧
    opCode (.beq c) = 8 ∧ opCode (.bne c) = 9 ∧ opCode (.blt c) = 10 ∧ opCode (.bge c) = 11 ∧
    opCode (.bltu c) = 12 ∧ opCode (.bgeu c) = 13

/-- R171, R172: MRET and FENCE, with arbitrary command and state, complete and do nothing; `rd` is not written. -/
def Obligations.MretAndFenceDoNothing : Prop :=
  ∀ (c : Fields) (s : State), hasNoEffect (.mret c) s ∧ hasNoEffect (.fence c) s ∧
    opCode (.mret c) = 21 ∧ opCode (.fence c) = 22

/-- R170, R198: ECALL completes and writes the cause code to the cause CSR, both parameters of the machine; it writes no
register, no other CSR and no memory, and saves nothing else. -/
def Obligations.EcallWritesTheCauseAndNothingElse : Prop :=
  ∀ (c : Fields) (s : State), opCode (.ecall c) = 20 ∧
    ∃ t, exec (.ecall c) s = .next t ∧ t.readCsr s.cfg.ecallCauseCsr = s.cfg.ecallCauseCode ∧
      t.csrMapped s.cfg.ecallCauseCsr = true ∧ onlyCsr s.cfg.ecallCauseCsr s t ∧
      t.x = s.x ∧ t.mem = s.mem ∧ sameMachine s t ∧ t.devices = (diagProbe (.ecall c) s).devices

/-- R180: OTHER completes and copies `alu_out` to `rd` bit for bit; with `rd` = 0 it does nothing. -/
def Obligations.OtherWritesTheResult : Prop :=
  ∀ (c : Fields) (s : State), opCode (.other c) = 23 ∧
    ∃ t, exec (.other c) s = .next t ∧ (c.rd ≠ 0 → t.readReg c.rd = c.aluOut) ∧ onlyRegister c.rd s t ∧
      t.csr = s.csr ∧ t.mem = s.mem ∧ sameMachine s t ∧ t.devices = (diagProbe (.other c) s).devices ∧
      (c.rd = 0 → s.cfg.diagProbe = none → t = s)

/-! ### Faults and exceptions -/

/-- R190, R191: the writeback memory fault, with its direction, width and address, exactly when the one bus access of a
load or store is refused; no other class and no other cause. -/
def Obligations.FaultExactlyWhenTheAccessIsRefused : Prop :=
  ∀ (i : Instr) (s : State) (f : Fault),
    exec i s = .fault f ↔ ∃ dir w, accessForm i = some (dir, w) ∧
      Config.target s.cfg dir w i.fields.aluOut = none ∧ f = .writebackMem dir w i.fields.aluOut

/-- R192: there is no other exception. No transaction is refused, and every class without a bus access completes. -/
def Obligations.EverythingElseIsTotal : Prop :=
  ∀ (i : Instr) (s : State), (∀ r, exec i s ≠ .refused r) ∧ (accessForm i = none → ∃ t, exec i s = .next t)

/-- R108, R193: a transaction that ends in the fault has changed no register, no CSR and no byte of memory. That the
peripherals have then seen the probe of phase 0 at most, and that without it nothing at all has changed, is the model's
choice (a failed access has no effect on a peripheral, decision D19, log 15; the form of the probe, log 7). -/
def Obligations.FaultCommitsNothing : Prop :=
  ∀ (i : Instr) (s t : State) (dir : Dir) (w : Width) (a : Word), writeback i s = (t, .fault dir w a) →
    t.x = s.x ∧ t.csr = s.csr ∧ t.mem = s.mem ∧ sameMachine s t ∧ t.devices = (diagProbe i s).devices ∧
    (s.cfg.diagProbe = none → t = s)

/-- What the driver does with a fault (R9 `ON_FAULT`, R194, R225 item 5; decision D13, log 14). With `endRun` the run ends in the
transaction's own fault. With `injectTrap` the machine goes on: the faulting command is off the stream and is not retried
(R195), registers and memory are as before it, peripherals have seen the probe at most (log 15), and the only CSRs that
may differ are those the driver itself writes, a free value (the model's choice, log 25). -/
def Obligations.TheDriverDecidesWhatAFaultDoes : Prop :=
  ∀ (s : State) (w : CommandWord) (rest : List CommandWord) (i : Instr) (f : Fault),
    s.commands = w :: rest → decode w = .ok i → exec i { s with commands := rest } = .fault f →
    (s.cfg.onFault = .endRun → step s = .fault f) ∧
    (s.cfg.onFault = .injectTrap → ∃ t, step s = .next t ∧ t.commands = rest ∧ t.cfg = s.cfg ∧ t.x = s.x ∧ t.mem = s.mem ∧
      t.devices = (diagProbe i { s with commands := rest }).devices ∧
      ∀ a, (∀ p ∈ Config.trapWrites (diagProbe i { s with commands := rest }) i f, p.1 ≠ a) →
        t.readCsr a = s.readCsr a ∧ t.csrMapped a = s.csrMapped a)

/-- R225 item 3 with R192: if the driver hands over a word of one of the 24 classes, the step completes or ends in the
writeback memory fault; it never gets stuck. -/
def Obligations.StepNeverRefusesAValidCommand : Prop :=
  ∀ (s : State) (w : CommandWord) (rest : List CommandWord), s.commands = w :: rest →
    CommandWord.wellFormed w = true →
    (∃ t, step s = .next t) ∨ ∃ dir width a, step s = .fault (.writebackMem dir width a)

/-! ### The whole machine -/

/-- 40_dispatch.md R100: the master pseudocode, phase by phase, and the 24 class rules describe the same machine. -/
def Obligations.ClassRulesRefineTheMasterPseudocode : Prop :=
  ∀ (i : Instr) (s : State), exec i s = outcomeOf (writeback i s)

/-- R104, its four columns, for every class. Register file: no register but `rd`, and none at all for a class that lists none.
CSR bank: no CSR but the one listed. Bus: only a store changes memory, and only the bytes of its access; peripherals see, after
the probe, the one read or write listed and nothing from a class without one (log 11). Can fault: loads and stores alone. -/
def Obligations.EachClassChangesOnlyWhatItsRowLists : Prop :=
  ∀ (i : Instr) (s : State),
    (∀ t, exec i s = .next t →
      onlyRegister i.fields.rd s t ∧ (writesRegister i = false → t.x = s.x) ∧
      (csrWritten i s.cfg = none → t.csr = s.csr) ∧
      (∀ a, csrWritten i s.cfg = some a → onlyCsr a s t) ∧
      ((∀ w, family i ≠ .store w) → t.mem = s.mem) ∧
      (∀ w, family i = .store w → s.Inv → ∀ b, ¬ inAccess w i.fields.aluOut b → t.byteAt b = s.byteAt b) ∧
      (accessForm i = none → t.devices = (diagProbe i s).devices) ∧
      (∀ dir w, accessForm i = some (dir, w) → t.devices = (diagProbe i s).devices ∨
        ∃ v, t.devices = (diagProbe i s).devices ++ [⟨dir, w, i.fields.aluOut, v⟩]) ∧
      sameMachine s t) ∧
    ∀ f, exec i s = .fault f → ∃ dir w, accessForm i = some (dir, w)

/-- 20_memory.md R57, R66: after the probe, peripherals see at most one access of a transaction, and it is the load's or
store's own, of its direction, width and address (log 11). -/
def Obligations.PeripheralsSeeAtMostOneAccessPerTransaction : Prop :=
  ∀ (i : Instr) (s t : State), exec i s = .next t →
    (t.devices = (diagProbe i s).devices ∨
      ∃ dir w v, accessForm i = some (dir, w) ∧
        t.devices = (diagProbe i s).devices ++ [⟨dir, w, i.fields.aluOut, v⟩]) ∧
    (accessForm i = none → t.devices = (diagProbe i s).devices)

/-- R101: phase 0 is nothing by default; with the probe enabled it is one bus read at the probe's address whose value and
error are discarded, so that only a peripheral can tell. The probe's address and width are the model's choice (decision D6,
log 7), and so is that a probe read which fails changes nothing (decision D19, log 15). -/
def Obligations.ProbeIsOneDiscardedRead : Prop :=
  ∀ (i : Instr) (s : State),
    (s.cfg.diagProbe = none → diagProbe i s = s) ∧
    (∀ p, s.cfg.diagProbe = some p →
      (Config.target s.cfg .read p.width (probeAddr p.addr i) ≠ some .device → diagProbe i s = s) ∧
      (Config.target s.cfg .read p.width (probeAddr p.addr i) = some .device → ∃ v,
        diagProbe i s = { s with devices := s.devices ++ [⟨.read, p.width, probeAddr p.addr i, v⟩] }))

/-- R29, R83: a field that a class does not read changes nothing of the result (without the probe, whose address may
depend on any field). -/
def Obligations.UnreadFieldsChangeNothing : Prop :=
  ∀ (i : Instr) (d : Fields) (s : State), s.cfg.diagProbe = none → agreeOn (readsOf i) i.fields d →
    exec i s = exec (i.withFields d) s

/-- R104, R140, R150: the classes without a bus access neither read nor write memory: with another memory they do the
same and leave that memory alone. -/
def Obligations.ClassesWithoutAccessIgnoreMemory : Prop :=
  ∀ (i : Instr) (s t : State) (m : Memory), accessForm i = none → exec i s = .next t →
    exec i { s with mem := m } = .next { t with mem := m }

/-- The invariant of log 22 holds after every reset of every platform whose load image is in the canonical form, and at
State.reset. After every reset register 0 reads 0 (R21, R36), every CSR is unmapped and reads 0 (R36; D12, log 13) and the
other registers read XREG_RESET (R9, R36).
The further clauses on State.reset rest on logged choices and on defaults, not on what the source gives. The model's own
choices: x1 to x31 read 0 (log 12), every byte reads 0 (log 10), no command is waiting (log 2). The defaults of R9, which the
spec itself marks as its decisions: ECALL_CAUSE_CSR 0x342 and ECALL_CAUSE_CODE 11 (D5, PRESUMED, log 6), no probe (D6, log 7),
little-endian (D7, log 8), ON_FAULT ends the run (D13, log 14). -/
def Obligations.ResetValuesAndInvariant : Prop :=
  (∀ (cfg : Config) (xregs : Vector Word 32) (m : Memory) (cmds : List CommandWord), Memory.wf m →
    (State.launch cfg xregs m cmds).Inv ∧ (State.launch cfg xregs m cmds).readReg 0 = 0 ∧
    (∀ a, (State.launch cfg xregs m cmds).readCsr a = 0 ∧ (State.launch cfg xregs m cmds).csrMapped a = false) ∧
    (∀ j, j ≠ 0 → (State.launch cfg xregs m cmds).readReg j = xregs[j.toNat]'(j.isLt))) ∧
  State.reset.Inv ∧ (∀ j, State.reset.readReg j = 0) ∧ (∀ a, State.reset.byteAt a = 0) ∧
  State.reset.commands = [] ∧ State.reset.cfg.ecallCauseCsr = 0x342 ∧ State.reset.cfg.ecallCauseCode = 11 ∧
  State.reset.cfg.diagProbe = none ∧ State.reset.cfg.byteOrder = .little ∧ State.reset.cfg.onFault = .endRun

/-- Every step keeps the invariant: the cell behind register 0 stays 0 (R21), the CSR bank and memory stay in their
canonical forms. -/
def Obligations.StepKeepsTheInvariant : Prop :=
  ∀ s t : State, s.Inv → step s = .next t → t.Inv

/-- R109, R225: a run of `n` steps that does not stop has taken exactly the driver's next `n` commands, in order and each
once, and has kept the parameters (the command stream is the model's own field, log 2; the parameters, log 3). -/
def Obligations.RunTakesEachCommandOnceInOrder : Prop :=
  ∀ (n : Nat) (s t : State), Host.Core.run Sys2Proof.core n s = .next t →
    n ≤ s.commands.length ∧ t.commands = s.commands.drop n ∧ t.cfg = s.cfg

/-- 70_reset_and_hazards.md R226: no hazards. The register that any class wrote, a loaded one included, holds its value at once,
and an ISA-conforming upstream hands that value to the very next command as either source operand (R89; PRESUMED, log 20).
The CSR that any class wrote holds its value at once, and every CSR class of the next command returns it. (The third case of
R226, a stored word that is loaded at once, is StoreThenLoadReturnsTheStoredValue.) -/
def Obligations.TheNextCommandSeesTheRegisterAndTheCsrJustWritten : Prop :=
  ∀ (i : Instr) (s t : State), exec i s = .next t →
    (writesRegister i = true → i.fields.rd ≠ 0 → ∃ v, registerValue i s = some v ∧ t.readReg i.fields.rd = v ∧
      ∀ (word : BitVec 32) (result : Word) (j : Instr), upstreamCommand word result t = some j →
        (word.extractLsb' 15 5 = i.fields.rd → j.fields.rs1Data = v) ∧
        (word.extractLsb' 20 5 = i.fields.rd → j.fields.rs2Data = v)) ∧
    (∀ a, csrWritten i s.cfg = some a → ∃ v, csrValue i s = some v ∧ t.readCsr a = v ∧
      ∀ j : Instr, family j = .csrRegister ∨ family j = .csrImmediate → j.fields.csr = a → j.fields.rd ≠ 0 →
        ∃ u, exec j t = .next u ∧ u.readReg j.fields.rd = v)

/-- 20_memory.md R64, 70_reset_and_hazards.md R228 (decision D15, log 23): a word stored with SW to RAM is what a later fetch
through the shared bus finds there, with no fence in between; MRET, FENCE and the branches change nothing of it. -/
def Obligations.StoredWordsAreSeenByLaterFetches : Prop :=
  ∀ (c : Fields) (s t : State), s.Inv → Config.target s.cfg .write .b4 c.aluOut = some .ram →
    exec (.sw c) s = .next t → upstreamFetch t c.aluOut = c.rs2Data ∧
      ∀ i, family i = .memoryFence ∨ family i = .trapReturn ∨ family i = .branch →
        ∃ u, exec i t = .next u ∧ upstreamFetch u c.aluOut = c.rs2Data

/-- 30_encoding.md R88, R89 (general knowledge, PRESUMED, log 20): an instruction word of any row of the table becomes a
command of that row's class, with the fields R89 gives it; so no word fits rows of two classes. -/
def Obligations.EveryInstructionWordHasTheClassOfItsRow : Prop :=
  ∀ (r : WordRow) (word : BitVec 32) (result : Word) (s : State), r ∈ wordRows → r.fits word = true →
    ∃ i, upstreamCommand word result s = some i ∧ opCode i = opCode r.cls ∧
      i.fields = upstreamFields word result s
end

