-- ==== Sys2Proof/Laws/State.lean ====
section
/-! SUPPORT. One lemma per field per update of the state, and the projections of an operand record and a command. -/

namespace Sys2Proof.Machine

variable (s : State) (i : RegIndex) (a : CsrAddr) (v : Word) (e : BusEvent) (w : CommandWord)

@[simp] theorem State.writeReg_csr : (s.writeReg i v).csr = s.csr := by unfold State.writeReg; split <;> rfl
@[simp] theorem State.writeReg_mem : (s.writeReg i v).mem = s.mem := by unfold State.writeReg; split <;> rfl
@[simp] theorem State.writeReg_devices : (s.writeReg i v).devices = s.devices := by
  unfold State.writeReg; split <;> rfl
@[simp] theorem State.writeReg_commands : (s.writeReg i v).commands = s.commands := by
  unfold State.writeReg; split <;> rfl
@[simp] theorem State.writeReg_cfg : (s.writeReg i v).cfg = s.cfg := by unfold State.writeReg; split <;> rfl

@[simp] theorem State.writeCsr_x : (s.writeCsr a v).x = s.x := rfl
@[simp] theorem State.writeCsr_csr : (s.writeCsr a v).csr = CsrBank.insert s.csr a v := rfl
@[simp] theorem State.writeCsr_mem : (s.writeCsr a v).mem = s.mem := rfl
@[simp] theorem State.writeCsr_devices : (s.writeCsr a v).devices = s.devices := rfl
@[simp] theorem State.writeCsr_commands : (s.writeCsr a v).commands = s.commands := rfl
@[simp] theorem State.writeCsr_cfg : (s.writeCsr a v).cfg = s.cfg := rfl

section
variable (ws : List (CsrAddr × Word))

@[simp] theorem State.writeCsrs_x : (s.writeCsrs ws).x = s.x := by
  induction ws generalizing s with
  | nil => rfl
  | cons p ws ih => exact ih (s.writeCsr p.1 p.2)
@[simp] theorem State.writeCsrs_mem : (s.writeCsrs ws).mem = s.mem := by
  induction ws generalizing s with
  | nil => rfl
  | cons p ws ih => exact ih (s.writeCsr p.1 p.2)
@[simp] theorem State.writeCsrs_devices : (s.writeCsrs ws).devices = s.devices := by
  induction ws generalizing s with
  | nil => rfl
  | cons p ws ih => exact ih (s.writeCsr p.1 p.2)
@[simp] theorem State.writeCsrs_commands : (s.writeCsrs ws).commands = s.commands := by
  induction ws generalizing s with
  | nil => rfl
  | cons p ws ih => exact ih (s.writeCsr p.1 p.2)
@[simp] theorem State.writeCsrs_cfg : (s.writeCsrs ws).cfg = s.cfg := by
  induction ws generalizing s with
  | nil => rfl
  | cons p ws ih => exact ih (s.writeCsr p.1 p.2)

variable (f : Fault) (c : Instr)

@[simp] theorem injectTrap_x : (injectTrap c f s).x = s.x := State.writeCsrs_x s _
@[simp] theorem injectTrap_mem : (injectTrap c f s).mem = s.mem := State.writeCsrs_mem s _
@[simp] theorem injectTrap_devices : (injectTrap c f s).devices = s.devices := State.writeCsrs_devices s _
@[simp] theorem injectTrap_commands : (injectTrap c f s).commands = s.commands := State.writeCsrs_commands s _
@[simp] theorem injectTrap_cfg : (injectTrap c f s).cfg = s.cfg := State.writeCsrs_cfg s _
end

@[simp] theorem State.seen_x : (s.seen e).x = s.x := rfl
@[simp] theorem State.seen_csr : (s.seen e).csr = s.csr := rfl
@[simp] theorem State.seen_mem : (s.seen e).mem = s.mem := rfl
@[simp] theorem State.seen_devices : (s.seen e).devices = s.devices ++ [e] := rfl
@[simp] theorem State.seen_commands : (s.seen e).commands = s.commands := rfl
@[simp] theorem State.seen_cfg : (s.seen e).cfg = s.cfg := rfl

@[simp] theorem State.handOver_x : (s.handOver w).x = s.x := rfl
@[simp] theorem State.handOver_csr : (s.handOver w).csr = s.csr := rfl
@[simp] theorem State.handOver_mem : (s.handOver w).mem = s.mem := rfl
@[simp] theorem State.handOver_devices : (s.handOver w).devices = s.devices := rfl
@[simp] theorem State.handOver_commands : (s.handOver w).commands = w :: s.commands := rfl
@[simp] theorem State.handOver_cfg : (s.handOver w).cfg = s.cfg := rfl

section
variable (n : Width) (b : Word) (d : BitVec n.bits)

@[simp] theorem State.writeRam_x : (s.writeRam n b d).x = s.x := rfl
@[simp] theorem State.writeRam_csr : (s.writeRam n b d).csr = s.csr := rfl
@[simp] theorem State.writeRam_mem :
    (s.writeRam n b d).mem = writeBytes s.cfg.byteOrder n b d n.bytes s.mem := rfl
@[simp] theorem State.writeRam_devices : (s.writeRam n b d).devices = s.devices := rfl
@[simp] theorem State.writeRam_commands : (s.writeRam n b d).commands = s.commands := rfl
@[simp] theorem State.writeRam_cfg : (s.writeRam n b d).cfg = s.cfg := rfl
end

/-- `byteAt` looks at memory alone. -/
theorem State.byteAt_congr {s t : State} (h : t.mem = s.mem) (b : Word) : t.byteAt b = s.byteAt b := by
  simp only [State.byteAt, h]

/-- `readCsr` looks at the bank alone. -/
theorem State.readCsr_congr {s t : State} (h : t.csr = s.csr) (b : CsrAddr) : t.readCsr b = s.readCsr b := by
  simp only [State.readCsr, h]

/-- `readReg` looks at the register file alone. -/
theorem State.readReg_congr {s t : State} (h : t.x = s.x) (j : RegIndex) : t.readReg j = s.readReg j := by
  simp only [State.readReg, h]

end Sys2Proof.Machine
end

