-- ==== Sys2Proof/Laws/Memory.lean ====
section
/-! SUPPORT. Memory: read after write, the canonical form, and the bytes a wide write changes. -/

namespace Sys2Proof.Machine

/-- Addresses below every listed one are unlisted. -/
theorem Memory.read_of_lt {m : Memory} {a : Nat} (h : ∀ c ∈ m, a < c.1) : Memory.read m a = unlistedByte := by
  induction m with
  | nil => rfl
  | cons c m ih =>
    obtain ⟨b, u⟩ := c
    have hb : b ≠ a := Nat.ne_of_gt (h (b, u) (by simp))
    simpa [Memory.read, hb] using ih fun c hc => h c (List.mem_cons_of_mem _ hc)

theorem Memory.read_place {m : Memory} {a : Nat} (v : Byte) (h : ∀ c ∈ m, a < c.1) (b : Nat) :
    Memory.read (Memory.place a v m) b = if b = a then v else Memory.read m b := by
  unfold Memory.place
  split_ifs with hv hb hb
  · rw [hb, Memory.read_of_lt h, hv]
  · rfl
  · simp [Memory.read, hb]
  · simp [Memory.read, Ne.symm hb]

/-- Reading any byte after a write of one byte. -/
theorem Memory.read_write {m : Memory} (h : Memory.wf m) (a : Nat) (v : Byte) (b : Nat) :
    Memory.read (Memory.write m a v) b = if b = a then v else Memory.read m b := by
  obtain ⟨hs, -⟩ := h
  induction m with
  | nil => exact Memory.read_place v (by simp) b
  | cons p m ih =>
    obtain ⟨d, u⟩ := p
    have hd := List.pairwise_cons.1 hs
    simp only [Memory.write]
    by_cases h1 : d < a
    · rw [if_pos h1]
      simp only [Memory.read, ih hd.2]
      by_cases hb : d = b
      · have : b ≠ a := by omega
        simp [hb, this]
      · simp [hb]
    · rw [if_neg h1]
      by_cases h2 : d = a
      · subst h2
        rw [if_pos rfl, Memory.read_place v hd.1]
        by_cases hb : b = d
        · simp [hb]
        · simp [hb, Memory.read, Ne.symm hb]
      · rw [if_neg h2, Memory.read_place v]
        intro c hc
        rcases List.mem_cons.1 hc with rfl | hc
        · show a < d; omega
        · have : d < c.1 := hd.1 c hc
          omega

theorem Memory.mem_place {m : Memory} {a : Nat} {v : Byte} {c : Host.Cell} (h : c ∈ Memory.place a v m) :
    (c.1 = a ∧ c.2 ≠ unlistedByte) ∨ c ∈ m := by
  unfold Memory.place at h
  split_ifs at h with hv
  · exact .inr h
  · rcases List.mem_cons.1 h with rfl | h
    · exact .inl ⟨rfl, hv⟩
    · exact .inr h

theorem Memory.mem_write {m : Memory} {a : Nat} {v : Byte} {c : Host.Cell} (h : c ∈ Memory.write m a v) :
    (c.1 = a ∧ c.2 ≠ unlistedByte) ∨ c ∈ m := by
  induction m with
  | nil => exact Memory.mem_place h
  | cons p m ih =>
    simp only [Memory.write] at h
    split_ifs at h
    · rcases List.mem_cons.1 h with rfl | h
      · exact .inr (by simp)
      · exact (ih h).imp_right (List.mem_cons_of_mem _)
    · exact (Memory.mem_place h).imp_right (List.mem_cons_of_mem _)
    · exact Memory.mem_place h

theorem Memory.pairwise_place {m : Memory} {a : Nat} (v : Byte) (h : ∀ c ∈ m, a < c.1)
    (hm : m.Pairwise fun p q => p.1 < q.1) : (Memory.place a v m).Pairwise fun p q => p.1 < q.1 := by
  unfold Memory.place
  split_ifs
  · exact hm
  · exact List.pairwise_cons.2 ⟨h, hm⟩

/-- A byte write keeps the canonical form. -/
theorem Memory.wf_write {m : Memory} (h : Memory.wf m) {a : Nat} (ha : a < 2 ^ 32) (v : Byte) :
    Memory.wf (Memory.write m a v) := by
  refine ⟨?_, fun c hc => ?_⟩
  · obtain ⟨hs, -⟩ := h
    induction m with
    | nil => exact Memory.pairwise_place v (by simp) List.Pairwise.nil
    | cons p m ih =>
      have hd := List.pairwise_cons.1 hs
      simp only [Memory.write]
      split_ifs with h1 h2
      · refine List.pairwise_cons.2 ⟨fun c hc => ?_, ih hd.2⟩
        rcases Memory.mem_write hc with ⟨e, -⟩ | hc
        · rw [e]; exact h1
        · exact hd.1 c hc
      · subst h2; exact Memory.pairwise_place v hd.1 hd.2
      · refine Memory.pairwise_place v (fun c hc => ?_) hs
        rcases List.mem_cons.1 hc with rfl | hc
        · omega
        · have := hd.1 c hc; omega
  · rcases Memory.mem_write hc with ⟨e, hv⟩ | hc
    · exact ⟨e ▸ ha, hv⟩
    · exact h.2 c hc

/-- A wide write keeps the canonical form. -/
theorem wf_writeBytes (order : ByteOrder) (w : Width) (a : Word) (v : BitVec w.bits) (n : Nat) {m : Memory}
    (h : Memory.wf m) : Memory.wf (writeBytes order w a v n m) := by
  induction n with
  | zero => exact h
  | succ k ih => exact Memory.wf_write ih (byteAddr order w a k).isLt _

/-- An address that none of the first `n` bytes lies at reads as before. -/
theorem read_writeBytes_of_ne (order : ByteOrder) (w : Width) (a : Word) (v : BitVec w.bits) {n : Nat} {m : Memory}
    (h : Memory.wf m) {b : Word} (hb : ∀ k < n, b ≠ byteAddr order w a k) :
    Memory.read (writeBytes order w a v n m) b.toNat = Memory.read m b.toNat := by
  induction n with
  | zero => rfl
  | succ k ih =>
    have hk : b.toNat ≠ (byteAddr order w a k).toNat := fun e => hb k (by omega) (BitVec.eq_of_toNat_eq e)
    simp only [writeBytes]
    rw [Memory.read_write (wf_writeBytes order w a v k h), if_neg hk, ih fun j hj => hb j (by omega)]

/-- Distinct bytes of an access lie at distinct addresses. -/
theorem byteAddr_inj (order : ByteOrder) (w : Width) (a : Word) {j k : Nat} (hj : j < w.bytes) (hk : k < w.bytes)
    (h : byteAddr order w a j = byteAddr order w a k) : j = k := by
  have hw : w.bytes ≤ 4 := by cases w <;> decide
  have e : BitVec.ofNat 32 (byteOffset order w j) = BitVec.ofNat 32 (byteOffset order w k) := by
    simpa [byteAddr] using h
  have e' := congrArg BitVec.toNat e
  cases order <;> simp only [byteOffset, BitVec.toNat_ofNat] at e' <;> omega

/-- Every byte of an access lies among its bytes. -/
theorem inAccess_byteAddr (order : ByteOrder) (w : Width) (a : Word) {k : Nat} (hk : k < w.bytes) :
    inAccess w a (byteAddr order w a k) := by
  have hw : w.bytes ≤ 4 := by cases w <;> decide
  have : byteAddr order w a k - a = BitVec.ofNat 32 (byteOffset order w k) := by
    simp [byteAddr, BitVec.add_comm a]
  simp only [inAccess, this, BitVec.toNat_ofNat]
  cases order <;> simp only [byteOffset] <;> omega

/-- Byte `k` of a written value lies at its place. -/
theorem read_writeBytes_self (order : ByteOrder) (w : Width) (a : Word) (v : BitVec w.bits) {n k : Nat} {m : Memory}
    (h : Memory.wf m) (hn : n ≤ w.bytes) (hk : k < n) :
    Memory.read (writeBytes order w a v n m) (byteAddr order w a k).toNat = valueByte v k := by
  induction n with
  | zero => omega
  | succ j ih =>
    simp only [writeBytes]
    rw [Memory.read_write (wf_writeBytes order w a v j h)]
    split_ifs with e
    · have := byteAddr_inj order w a (by omega : k < w.bytes) (by omega : j < w.bytes) (BitVec.eq_of_toNat_eq e)
      rw [this]
    · refine ih (by omega) ?_
      rcases Nat.lt_succ_iff_lt_or_eq.1 hk with hlt | rfl
      · exact hlt
      · exact absurd rfl e

/-- A RAM write keeps every byte outside the access. -/
theorem State.byteAt_writeRam_of_not_inAccess {s : State} (h : Memory.wf s.mem) (w : Width) (a : Word)
    (v : BitVec w.bits) {b : Word} (hb : ¬ inAccess w a b) : (s.writeRam w a v).byteAt b = s.byteAt b :=
  read_writeBytes_of_ne _ w a v h fun _ hk e => hb (e ▸ inAccess_byteAddr _ w a hk)

/-- A RAM write puts byte `k` of the value at its place. -/
theorem State.byteAt_writeRam_self {s : State} (h : Memory.wf s.mem) (w : Width) (a : Word) (v : BitVec w.bits)
    {k : Nat} (hk : k < w.bytes) :
    (s.writeRam w a v).byteAt (byteAddr s.cfg.byteOrder w a k) = valueByte v k :=
  read_writeBytes_self _ w a v h (Nat.le_refl _) hk

theorem joinBytes_valueByte_b2 (v : BitVec 16) : valueByte v 1 ++ valueByte v 0 = v := by
  simp only [valueByte]
  apply BitVec.eq_of_getLsbD_eq
  intro i hi
  simp only [BitVec.getLsbD_append, BitVec.getLsbD_extractLsb']
  by_cases h : i < 8
  · simp [h]
  · have : i - 8 < 8 := by omega
    have e : 8 + (i - 8) = i := by omega
    simp [h, this, e]

theorem joinBytes_valueByte_b4 (v : BitVec 32) :
    valueByte v 3 ++ valueByte v 2 ++ valueByte v 1 ++ valueByte v 0 = v := by
  simp only [valueByte]
  apply BitVec.eq_of_getLsbD_eq
  intro i hi
  simp only [BitVec.getLsbD_append, BitVec.getLsbD_extractLsb']
  interval_cases i <;> simp

/-- The bytes of a value make it up again. -/
theorem joinBytes_valueByte (w : Width) (v : BitVec w.bits) : joinBytes w (valueByte v) = v := by
  cases w
  · exact (by intro v; simp [valueByte] : ∀ v : BitVec 8, valueByte v 0 = v) v
  · exact joinBytes_valueByte_b2 v
  · exact joinBytes_valueByte_b4 v

/-- `joinBytes` looks at the bytes of its width alone. -/
theorem joinBytes_congr (w : Width) {f g : Nat → Byte} (h : ∀ k < w.bytes, f k = g k) :
    joinBytes w f = joinBytes w g := by
  cases w
  · exact h 0 (by decide)
  · show f 1 ++ f 0 = g 1 ++ g 0
    rw [h 0 (by decide), h 1 (by decide)]
  · show f 3 ++ f 2 ++ f 1 ++ f 0 = g 3 ++ g 2 ++ g 1 ++ g 0
    rw [h 0 (by decide), h 1 (by decide), h 2 (by decide), h 3 (by decide)]

/-- A RAM write is read back whole, whatever the byte order (R59). -/
theorem State.ramValue_writeRam {s : State} (h : Memory.wf s.mem) (w : Width) (a : Word) (v : BitVec w.bits) :
    (s.writeRam w a v).ramValue w a = v := by
  unfold State.ramValue
  rw [State.writeRam_cfg, joinBytes_congr w (g := valueByte v)
    fun k hk => State.byteAt_writeRam_self h w a v hk, joinBytes_valueByte]

end Sys2Proof.Machine
end

