-- ==== Sys2Proof/Laws/Bus.lean ====
section
/-! SUPPORT. What the bus primitives and the diagnostic probe can do, once for every caller. -/

namespace Sys2Proof.Machine

/-- A bus read answers what its target answers, and fails exactly where the bus admits it nowhere. -/
theorem memRead_cases (w : Width) (a : Word) (s : State) :
    (Config.target s.cfg .read w a = none ∧ memRead w a s = .error busError) ∨
    (Config.target s.cfg .read w a = some .ram ∧ memRead w a s = .ok (s.ramValue w a, s)) ∨
    (Config.target s.cfg .read w a = some .device ∧
      memRead w a s = .ok (s.deviceValue w a, s.seen ⟨.read, w, a, (s.deviceValue w a).setWidth 32⟩)) := by
  unfold memRead
  cases h : Config.target s.cfg .read w a with
  | none => exact .inl ⟨rfl, rfl⟩
  | some k =>
    cases k
    · exact .inr (.inl ⟨rfl, rfl⟩)
    · exact .inr (.inr ⟨rfl, rfl⟩)

/-- A bus write does what its target does, and fails exactly where the bus admits it nowhere. -/
theorem memWrite_cases (w : Width) (a : Word) (v : BitVec w.bits) (s : State) :
    (Config.target s.cfg .write w a = none ∧ memWrite w a v s = .error busError) ∨
    (Config.target s.cfg .write w a = some .ram ∧ memWrite w a v s = .ok (s.writeRam w a v)) ∨
    (Config.target s.cfg .write w a = some .device ∧
      memWrite w a v s = .ok (s.seen ⟨.write, w, a, v.setWidth 32⟩)) := by
  unfold memWrite
  cases h : Config.target s.cfg .write w a with
  | none => exact .inl ⟨rfl, rfl⟩
  | some k =>
    cases k
    · exact .inr (.inl ⟨rfl, rfl⟩)
    · exact .inr (.inr ⟨rfl, rfl⟩)

/-- A successful bus read leaves the state, or lets one peripheral see it. -/
theorem memRead_ok {w : Width} {a : Word} {s s' : State} {v : BitVec w.bits} (h : memRead w a s = .ok (v, s')) :
    s' = s ∨ ∃ e, s' = s.seen e := by
  rcases memRead_cases w a s with ⟨-, e⟩ | ⟨-, e⟩ | ⟨-, e⟩ <;> rw [e] at h <;> simp only [Except.ok.injEq, Prod.mk.injEq,
    reduceCtorEq] at h
  · exact .inl h.2.symm
  · exact .inr ⟨_, h.2.symm⟩

/-- The probe leaves the state, or lets one peripheral see one read (R101). -/
theorem diagProbe_cases (i : Instr) (s : State) : diagProbe i s = s ∨ ∃ e, diagProbe i s = s.seen e := by
  unfold diagProbe
  cases s.cfg.diagProbe with
  | none => exact .inl rfl
  | some p =>
    simp only
    split
    · next v s' h => exact memRead_ok h
    · exact .inl rfl

/-- Without the probe phase 0 is nothing (R101). -/
theorem diagProbe_none {i : Instr} {s : State} (h : s.cfg.diagProbe = none) : diagProbe i s = s := by
  simp only [diagProbe, h]

section
variable (i : Instr) (s : State)

@[simp] theorem diagProbe_x : (diagProbe i s).x = s.x := by
  rcases diagProbe_cases i s with h | ⟨e, h⟩ <;> rw [h]; rfl
@[simp] theorem diagProbe_csr : (diagProbe i s).csr = s.csr := by
  rcases diagProbe_cases i s with h | ⟨e, h⟩ <;> rw [h]; rfl
@[simp] theorem diagProbe_mem : (diagProbe i s).mem = s.mem := by
  rcases diagProbe_cases i s with h | ⟨e, h⟩ <;> rw [h]; rfl
@[simp] theorem diagProbe_commands : (diagProbe i s).commands = s.commands := by
  rcases diagProbe_cases i s with h | ⟨e, h⟩ <;> rw [h]; rfl
@[simp] theorem diagProbe_cfg : (diagProbe i s).cfg = s.cfg := by
  rcases diagProbe_cases i s with h | ⟨e, h⟩ <;> rw [h]; rfl

@[simp] theorem diagProbe_readReg (j : RegIndex) : (diagProbe i s).readReg j = s.readReg j :=
  State.readReg_congr (diagProbe_x i s) j
@[simp] theorem diagProbe_readCsr (a : CsrAddr) : (diagProbe i s).readCsr a = s.readCsr a :=
  State.readCsr_congr (diagProbe_csr i s) a
@[simp] theorem diagProbe_byteAt (a : Word) : (diagProbe i s).byteAt a = s.byteAt a :=
  State.byteAt_congr (diagProbe_mem i s) a
@[simp] theorem diagProbe_ramValue (w : Width) (a : Word) : (diagProbe i s).ramValue w a = s.ramValue w a := by
  simp only [State.ramValue, diagProbe_byteAt, diagProbe_cfg]
end

/-- The whole of a load, by what answers its access. -/
theorem load_cases (w : Width) (f : BitVec w.bits → Word) (c : Fields) (s : State) :
    (Config.target s.cfg .read w c.aluOut = none ∧ load w f c s = .fault (.writebackMem .read w c.aluOut)) ∨
    (Config.target s.cfg .read w c.aluOut = some .ram ∧
      load w f c s = .next (s.writeReg c.rd (f (s.ramValue w c.aluOut)))) ∨
    (Config.target s.cfg .read w c.aluOut = some .device ∧
      load w f c s = .next ((s.seen ⟨.read, w, c.aluOut, (s.deviceValue w c.aluOut).setWidth 32⟩).writeReg c.rd
        (f (s.deviceValue w c.aluOut)))) := by
  unfold load accessAddr
  rcases memRead_cases w c.aluOut s with ⟨h, e⟩ | ⟨h, e⟩ | ⟨h, e⟩ <;> rw [e]
  · exact .inl ⟨h, rfl⟩
  · exact .inr (.inl ⟨h, rfl⟩)
  · exact .inr (.inr ⟨h, rfl⟩)

/-- The whole of a store, by what answers its access. -/
theorem store_cases (w : Width) (c : Fields) (s : State) :
    (Config.target s.cfg .write w c.aluOut = none ∧ store w c s = .fault (.writebackMem .write w c.aluOut)) ∨
    (Config.target s.cfg .write w c.aluOut = some .ram ∧
      store w c s = .next (s.writeRam w c.aluOut (storeData w c))) ∨
    (Config.target s.cfg .write w c.aluOut = some .device ∧
      store w c s = .next (s.seen ⟨.write, w, c.aluOut, (storeData w c).setWidth 32⟩)) := by
  unfold store accessAddr
  rcases memWrite_cases w c.aluOut (storeData w c) s with ⟨h, e⟩ | ⟨h, e⟩ | ⟨h, e⟩ <;> rw [e]
  · exact .inl ⟨h, rfl⟩
  · exact .inr (.inl ⟨h, rfl⟩)
  · exact .inr (.inr ⟨h, rfl⟩)

end Sys2Proof.Machine
end

