-- ==== Sys2Proof/Laws/CsrBank.lean ====
section
/-! SUPPORT. The CSR bank: read after write, and the canonical form. -/

namespace Sys2Proof.Machine

theorem CsrBank.lookup_insert_self (bank : CsrBank) (a : CsrAddr) (v : Word) :
    CsrBank.lookup (CsrBank.insert bank a v) a = some v := by
  induction bank with
  | nil => simp [CsrBank.insert, CsrBank.lookup]
  | cons p bank ih =>
    obtain ⟨b, u⟩ := p
    simp only [CsrBank.insert]
    split_ifs with h1 h2
    · have : b ≠ a := by rintro rfl; exact absurd h1 (by simp)
      simpa [CsrBank.lookup, this] using ih
    · simp [CsrBank.lookup]
    · simp [CsrBank.lookup]

theorem CsrBank.lookup_insert_of_ne (bank : CsrBank) {a b : CsrAddr} (h : b ≠ a) (v : Word) :
    CsrBank.lookup (CsrBank.insert bank a v) b = CsrBank.lookup bank b := by
  induction bank with
  | nil => simp [CsrBank.insert, CsrBank.lookup, h.symm]
  | cons p bank ih =>
    obtain ⟨d, u⟩ := p
    simp only [CsrBank.insert]
    split_ifs with h1 h2
    · simp only [CsrBank.lookup, ih]
    · subst h2; simp [CsrBank.lookup, h.symm]
    · simp [CsrBank.lookup, h.symm]

/-- What the bank holds after an insertion. -/
theorem CsrBank.mem_insert {bank : CsrBank} {a : CsrAddr} {v : Word} {p : CsrAddr × Word}
    (h : p ∈ CsrBank.insert bank a v) : p = (a, v) ∨ p ∈ bank := by
  induction bank with
  | nil => simpa [CsrBank.insert] using h
  | cons q bank ih =>
    obtain ⟨d, u⟩ := q
    simp only [CsrBank.insert] at h
    split_ifs at h
    · rcases List.mem_cons.1 h with rfl | h
      · simp
      · exact (ih h).imp_right (List.mem_cons_of_mem _)
    · rcases List.mem_cons.1 h with rfl | h
      · simp
      · exact .inr (List.mem_cons_of_mem _ h)
    · exact (List.mem_cons.1 h).imp_right id

/-- A write to the bank keeps its canonical form. -/
theorem CsrBank.wf_insert {bank : CsrBank} (h : CsrBank.wf bank) (a : CsrAddr) (v : Word) :
    CsrBank.wf (CsrBank.insert bank a v) := by
  induction bank with
  | nil => simp [CsrBank.insert, CsrBank.wf]
  | cons q bank ih =>
    obtain ⟨d, u⟩ := q
    have hd := List.pairwise_cons.1 h
    simp only [CsrBank.insert, CsrBank.wf]
    split_ifs with h1 h2
    · refine List.pairwise_cons.2 ⟨fun p hp => ?_, ih hd.2⟩
      rcases CsrBank.mem_insert hp with rfl | hp
      · exact h1
      · exact hd.1 p hp
    · subst h2; exact List.pairwise_cons.2 ⟨hd.1, hd.2⟩
    · have hlt : a < d := by bv_omega
      refine List.pairwise_cons.2 ⟨fun p hp => ?_, h⟩
      rcases List.mem_cons.1 hp with rfl | hp
      · exact hlt
      · exact BitVec.lt_trans hlt (hd.1 p hp)

/-- Several CSR writes keep the canonical form. -/
theorem State.wf_writeCsrs {s : State} (h : CsrBank.wf s.csr) (ws : List (CsrAddr × Word)) :
    CsrBank.wf (s.writeCsrs ws).csr := by
  induction ws generalizing s with
  | nil => exact h
  | cons p ws ih => exact ih (CsrBank.wf_insert h p.1 p.2)

/-- Several CSR writes leave every other CSR as it was. -/
theorem State.lookup_writeCsrs_of_not_mem {b : CsrAddr} (s : State) {ws : List (CsrAddr × Word)}
    (h : ∀ p ∈ ws, p.1 ≠ b) : CsrBank.lookup (s.writeCsrs ws).csr b = CsrBank.lookup s.csr b := by
  induction ws generalizing s with
  | nil => rfl
  | cons p ws ih =>
    have hp := List.forall_mem_cons.1 h
    exact (ih (s.writeCsr p.1 p.2) hp.2).trans (CsrBank.lookup_insert_of_ne _ hp.1.symm _)

end Sys2Proof.Machine
end

