-- ==== Sys2Proof/Laws/Registers.lean ====
section
/-! SUPPORT. The register file: register 0, read after write, and the cell behind register 0. -/

namespace Sys2Proof.Machine

/-- Register 0 reads 0 (R21), in the spelling of an index that simp uses. -/
@[simp] theorem State.readReg_zero (s : State) : s.readReg 0#5 = 0 := if_pos rfl

/-- A write to register 0 is dropped (R22). -/
@[simp] theorem State.writeReg_zero (s : State) (v : Word) : s.writeReg 0#5 v = s := if_pos rfl

theorem State.writeReg_eq (s : State) {i : RegIndex} (h : i ≠ 0) (v : Word) :
    s.writeReg i v = { s with x := s.x.set i.toNat v i.isLt } := if_neg h

theorem State.readReg_eq (s : State) {i : RegIndex} (h : i ≠ 0) : s.readReg i = s.x[i.toNat]'(i.isLt) := if_neg h

/-- Reading a register after a write to it. -/
theorem State.readReg_writeReg_self (s : State) {i : RegIndex} (h : i ≠ 0) (v : Word) :
    (s.writeReg i v).readReg i = v := by
  rw [State.readReg_eq _ h, State.writeReg_eq s h]
  simp

/-- Reading another register after a write. -/
theorem State.readReg_writeReg_of_ne (s : State) {i j : RegIndex} (h : j ≠ i) (v : Word) :
    (s.writeReg i v).readReg j = s.readReg j := by
  by_cases hi : i = 0
  · rw [hi]; exact congrArg (fun t => State.readReg t j) (State.writeReg_zero s v)
  · have hne : i.toNat ≠ j.toNat := fun e => h (BitVec.eq_of_toNat_eq e.symm)
    rw [State.writeReg_eq s hi]
    unfold State.readReg
    split
    · rfl
    · exact Vector.getElem_set_ne i.isLt _ hne

/-- No register write reaches the cell behind register 0 (R22). -/
theorem State.writeReg_cell_zero (s : State) (i : RegIndex) (v : Word) : (s.writeReg i v).x[0] = s.x[0] := by
  by_cases hi : i = 0
  · rw [hi]; exact congrArg (fun t => t.x[0]) (State.writeReg_zero s v)
  · have hne : i.toNat ≠ 0 := fun e => hi (BitVec.eq_of_toNat_eq (by simpa using e))
    rw [State.writeReg_eq s hi]
    exact Vector.getElem_set_ne i.isLt _ hne

end Sys2Proof.Machine
end

