-- ==== Sys2Proof/Laws/Exec.lean ====
section
/-! SUPPORT. What one transaction and one step can do: the inversion lemmas that proofs over all classes cite. -/

namespace Sys2Proof.Machine

/-- A RAM or device access of a load, a store, a register write over a CSR write, an ECALL, or nothing: the shapes of
a next state. `p` is the state after the probe. -/
inductive Effect (i : Instr) (p : State) : State → Prop where
  | loadRam (w : Width) (f : BitVec w.bits → Word) (sg : Bool) (hf : family i = .load w sg)
      (ht : Config.target p.cfg .read w i.fields.aluOut = some .ram) :
      Effect i p (p.writeReg i.fields.rd (f (p.ramValue w i.fields.aluOut)))
  | loadDevice (w : Width) (f : BitVec w.bits → Word) (sg : Bool) (hf : family i = .load w sg)
      (ht : Config.target p.cfg .read w i.fields.aluOut = some .device) :
      Effect i p ((p.seen ⟨.read, w, i.fields.aluOut, (p.deviceValue w i.fields.aluOut).setWidth 32⟩).writeReg
        i.fields.rd (f (p.deviceValue w i.fields.aluOut)))
  | storeRam (w : Width) (hf : family i = .store w)
      (ht : Config.target p.cfg .write w i.fields.aluOut = some .ram) :
      Effect i p (p.writeRam w i.fields.aluOut (storeData w i.fields))
  | storeDevice (w : Width) (hf : family i = .store w)
      (ht : Config.target p.cfg .write w i.fields.aluOut = some .device) :
      Effect i p (p.seen ⟨.write, w, i.fields.aluOut, (storeData w i.fields).setWidth 32⟩)
  | csr (v : Word) (hf : family i = .csrRegister ∨ family i = .csrImmediate) :
      Effect i p ((p.writeCsr i.fields.csr v).writeReg i.fields.rd (p.readCsr i.fields.csr))
  | environmentCall (hf : family i = .environmentCall) : Effect i p (takeEnvironmentCall p)
  | nothing (hf : family i = .branch ∨ family i = .trapReturn ∨ family i = .memoryFence) : Effect i p p
  | residual (hf : family i = .residual) : Effect i p (p.writeReg i.fields.rd i.fields.aluOut)

/-- A load ends in its fault or in one of its effects. -/
theorem load_effect {i : Instr} {w : Width} {sg : Bool} (f : BitVec w.bits → Word) (hf : family i = .load w sg)
    (p : State) :
    (accessForm i = some (.read, w) ∧ Config.target p.cfg .read w i.fields.aluOut = none ∧
      load w f i.fields p = .fault (.writebackMem .read w i.fields.aluOut)) ∨
    ∃ t, load w f i.fields p = .next t ∧ Effect i p t := by
  rcases load_cases w f i.fields p with ⟨h, e⟩ | ⟨h, e⟩ | ⟨h, e⟩
  · exact .inl ⟨by simp [accessForm, hf], h, e⟩
  · exact .inr ⟨_, e, .loadRam w f sg hf h⟩
  · exact .inr ⟨_, e, .loadDevice w f sg hf h⟩

/-- A store ends in its fault or in one of its effects. -/
theorem store_effect {i : Instr} {w : Width} (hf : family i = .store w) (p : State) :
    (accessForm i = some (.write, w) ∧ Config.target p.cfg .write w i.fields.aluOut = none ∧
      store w i.fields p = .fault (.writebackMem .write w i.fields.aluOut)) ∨
    ∃ t, store w i.fields p = .next t ∧ Effect i p t := by
  rcases store_cases w i.fields p with ⟨h, e⟩ | ⟨h, e⟩ | ⟨h, e⟩
  · exact .inl ⟨by simp [accessForm, hf], h, e⟩
  · exact .inr ⟨_, e, .storeRam w hf h⟩
  · exact .inr ⟨_, e, .storeDevice w hf h⟩

/-- Everything a transaction can do: the fault of its own refused access, or one of the effects. -/
theorem exec_cases (i : Instr) (s : State) :
    (∃ dir w, accessForm i = some (dir, w) ∧ Config.target s.cfg dir w i.fields.aluOut = none ∧
      exec i s = .fault (.writebackMem dir w i.fields.aluOut)) ∨
    ∃ t, exec i s = .next t ∧ Effect i (diagProbe i s) t := by
  have lift : ∀ {dir w} {o : Host.Outcome State Fault Refusal},
      (accessForm i = some (dir, w) ∧ Config.target (diagProbe i s).cfg dir w i.fields.aluOut = none ∧
        o = .fault (.writebackMem dir w i.fields.aluOut)) ∨ (∃ t, o = .next t ∧ Effect i (diagProbe i s) t) →
      (∃ dir w, accessForm i = some (dir, w) ∧ Config.target s.cfg dir w i.fields.aluOut = none ∧
        o = .fault (.writebackMem dir w i.fields.aluOut)) ∨ ∃ t, o = .next t ∧ Effect i (diagProbe i s) t := by
    rintro dir w o (⟨h1, h2, h3⟩ | h)
    · exact .inl ⟨dir, w, h1, by simpa using h2, h3⟩
    · exact .inr h
  cases i with
  | lb c => exact lift (load_effect (i := .lb c) sext32 rfl _)
  | lbu c => exact lift (load_effect (i := .lbu c) zext32 rfl _)
  | lh c => exact lift (load_effect (i := .lh c) sext32 rfl _)
  | lhu c => exact lift (load_effect (i := .lhu c) zext32 rfl _)
  | lw c => exact lift (load_effect (i := .lw c) zext32 rfl _)
  | sb c => exact lift (store_effect (i := .sb c) rfl _)
  | sh c => exact lift (store_effect (i := .sh c) rfl _)
  | sw c => exact lift (store_effect (i := .sw c) rfl _)
  | beq c => exact .inr ⟨_, rfl, .nothing (.inl rfl)⟩
  | bne c => exact .inr ⟨_, rfl, .nothing (.inl rfl)⟩
  | blt c => exact .inr ⟨_, rfl, .nothing (.inl rfl)⟩
  | bge c => exact .inr ⟨_, rfl, .nothing (.inl rfl)⟩
  | bltu c => exact .inr ⟨_, rfl, .nothing (.inl rfl)⟩
  | bgeu c => exact .inr ⟨_, rfl, .nothing (.inl rfl)⟩
  | csrrw c => exact .inr ⟨_, rfl, .csr (i := .csrrw c) _ (.inl rfl)⟩
  | csrrwi c => exact .inr ⟨_, rfl, .csr (i := .csrrwi c) _ (.inr rfl)⟩
  | csrrs c => exact .inr ⟨_, rfl, .csr (i := .csrrs c) _ (.inl rfl)⟩
  | csrrsi c => exact .inr ⟨_, rfl, .csr (i := .csrrsi c) _ (.inr rfl)⟩
  | csrrc c => exact .inr ⟨_, rfl, .csr (i := .csrrc c) _ (.inl rfl)⟩
  | csrrci c => exact .inr ⟨_, rfl, .csr (i := .csrrci c) _ (.inr rfl)⟩
  | ecall c => exact .inr ⟨_, rfl, .environmentCall rfl⟩
  | mret c => exact .inr ⟨_, rfl, .nothing (.inr (.inl rfl))⟩
  | fence c => exact .inr ⟨_, rfl, .nothing (.inr (.inr rfl))⟩
  | other c => exact .inr ⟨_, rfl, .residual (i := .other c) rfl⟩

/-- A transaction that answers a next state has one of the effects. -/
theorem exec_next {i : Instr} {s t : State} (h : exec i s = .next t) : Effect i (diagProbe i s) t := by
  rcases exec_cases i s with ⟨_, _, -, -, e⟩ | ⟨u, e, hu⟩ <;> rw [e] at h
  · cases h
  · cases h; exact hu

/-- Everything that can come of one command: its own effect, or the fault of its refused access, which `ON_FAULT` makes the end
of the run or a trap that the driver injects. -/
theorem driverTakes_cases (i : Instr) (s : State) :
    (∃ t, exec i s = .next t ∧ driverTakes i s (exec i s) = .next t ∧ Effect i (diagProbe i s) t) ∨
    ∃ f, exec i s = .fault f ∧
      ((s.cfg.onFault = .endRun ∧ driverTakes i s (exec i s) = .fault f) ∨
       (s.cfg.onFault = .injectTrap ∧ driverTakes i s (exec i s) = .next (injectTrap i f (diagProbe i s)))) := by
  rcases exec_cases i s with ⟨dir, w, -, -, e⟩ | ⟨t, e, h⟩
  · refine .inr ⟨_, e, ?_⟩
    rw [e]
    cases h : s.cfg.onFault with
    | endRun => exact .inl ⟨rfl, by simp only [driverTakes, h]⟩
    | injectTrap => exact .inr ⟨rfl, by simp only [driverTakes, h]⟩
  · exact .inl ⟨t, e, by rw [e]; rfl, h⟩

/-- Everything a step can do. -/
theorem step_cases (s : State) :
    (s.commands = [] ∧ step s = .refused .noCommand) ∨
    ∃ w rest, s.commands = w :: rest ∧
      ((∃ code, decode w = .error (.reservedOp code) ∧ step s = .refused (.reservedOp code)) ∨
       ∃ i, decode w = .ok i ∧
         step s = driverTakes i { s with commands := rest } (exec i { s with commands := rest })) := by
  cases h : s.commands with
  | nil => exact .inl ⟨rfl, by simp only [step, nextCommand, h]⟩
  | cons w rest =>
    refine .inr ⟨w, rest, rfl, ?_⟩
    cases hd : decode w with
    | error e => cases e with | reservedOp code => exact .inl ⟨code, rfl, by simp only [step, nextCommand, h, hd]⟩
    | ok i => exact .inr ⟨i, rfl, by simp only [step, nextCommand, h, hd]⟩

end Sys2Proof.Machine
end

