-- ==== Sys2Proof/Laws/PerInstr.lean ====
section
/-! SUPPORT. One lemma per constructor of Instr for each per-instruction family of LAWS.json. -/

/-- The class table of R82 reads back the code that the encoder writes. -/
def Sys2Proof.Laws.ClassCode.Statement (i : Sys2Proof.Instr) : Prop :=
  Sys2Proof.decodeClass (Sys2Proof.opCode i) i.fields = .ok i

/-- Replacing the operand fields keeps the class's code and puts in the new fields. -/
def Sys2Proof.Laws.FieldsReplaced.Statement (i : Sys2Proof.Instr) : Prop :=
  ∀ d : Sys2Proof.Fields, (i.withFields d).fields = d ∧ Sys2Proof.opCode (i.withFields d) = Sys2Proof.opCode i

theorem Sys2Proof.Laws.ClassCode.lb (c : Sys2Proof.Fields) : Sys2Proof.Laws.ClassCode.Statement (.lb c) := rfl

theorem Sys2Proof.Laws.FieldsReplaced.lb (c : Sys2Proof.Fields) : Sys2Proof.Laws.FieldsReplaced.Statement (.lb c) :=
  fun _ => ⟨rfl, rfl⟩

theorem Sys2Proof.Laws.ClassCode.lbu (c : Sys2Proof.Fields) : Sys2Proof.Laws.ClassCode.Statement (.lbu c) := rfl

theorem Sys2Proof.Laws.FieldsReplaced.lbu (c : Sys2Proof.Fields) : Sys2Proof.Laws.FieldsReplaced.Statement (.lbu c) :=
  fun _ => ⟨rfl, rfl⟩

theorem Sys2Proof.Laws.ClassCode.lh (c : Sys2Proof.Fields) : Sys2Proof.Laws.ClassCode.Statement (.lh c) := rfl

theorem Sys2Proof.Laws.FieldsReplaced.lh (c : Sys2Proof.Fields) : Sys2Proof.Laws.FieldsReplaced.Statement (.lh c) :=
  fun _ => ⟨rfl, rfl⟩

theorem Sys2Proof.Laws.ClassCode.lhu (c : Sys2Proof.Fields) : Sys2Proof.Laws.ClassCode.Statement (.lhu c) := rfl

theorem Sys2Proof.Laws.FieldsReplaced.lhu (c : Sys2Proof.Fields) : Sys2Proof.Laws.FieldsReplaced.Statement (.lhu c) :=
  fun _ => ⟨rfl, rfl⟩

theorem Sys2Proof.Laws.ClassCode.lw (c : Sys2Proof.Fields) : Sys2Proof.Laws.ClassCode.Statement (.lw c) := rfl

theorem Sys2Proof.Laws.FieldsReplaced.lw (c : Sys2Proof.Fields) : Sys2Proof.Laws.FieldsReplaced.Statement (.lw c) :=
  fun _ => ⟨rfl, rfl⟩

theorem Sys2Proof.Laws.ClassCode.sb (c : Sys2Proof.Fields) : Sys2Proof.Laws.ClassCode.Statement (.sb c) := rfl

theorem Sys2Proof.Laws.FieldsReplaced.sb (c : Sys2Proof.Fields) : Sys2Proof.Laws.FieldsReplaced.Statement (.sb c) :=
  fun _ => ⟨rfl, rfl⟩

theorem Sys2Proof.Laws.ClassCode.sh (c : Sys2Proof.Fields) : Sys2Proof.Laws.ClassCode.Statement (.sh c) := rfl

theorem Sys2Proof.Laws.FieldsReplaced.sh (c : Sys2Proof.Fields) : Sys2Proof.Laws.FieldsReplaced.Statement (.sh c) :=
  fun _ => ⟨rfl, rfl⟩

theorem Sys2Proof.Laws.ClassCode.sw (c : Sys2Proof.Fields) : Sys2Proof.Laws.ClassCode.Statement (.sw c) := rfl

theorem Sys2Proof.Laws.FieldsReplaced.sw (c : Sys2Proof.Fields) : Sys2Proof.Laws.FieldsReplaced.Statement (.sw c) :=
  fun _ => ⟨rfl, rfl⟩

theorem Sys2Proof.Laws.ClassCode.beq (c : Sys2Proof.Fields) : Sys2Proof.Laws.ClassCode.Statement (.beq c) := rfl

theorem Sys2Proof.Laws.FieldsReplaced.beq (c : Sys2Proof.Fields) : Sys2Proof.Laws.FieldsReplaced.Statement (.beq c) :=
  fun _ => ⟨rfl, rfl⟩

theorem Sys2Proof.Laws.ClassCode.bne (c : Sys2Proof.Fields) : Sys2Proof.Laws.ClassCode.Statement (.bne c) := rfl

theorem Sys2Proof.Laws.FieldsReplaced.bne (c : Sys2Proof.Fields) : Sys2Proof.Laws.FieldsReplaced.Statement (.bne c) :=
  fun _ => ⟨rfl, rfl⟩

theorem Sys2Proof.Laws.ClassCode.blt (c : Sys2Proof.Fields) : Sys2Proof.Laws.ClassCode.Statement (.blt c) := rfl

theorem Sys2Proof.Laws.FieldsReplaced.blt (c : Sys2Proof.Fields) : Sys2Proof.Laws.FieldsReplaced.Statement (.blt c) :=
  fun _ => ⟨rfl, rfl⟩

theorem Sys2Proof.Laws.ClassCode.bge (c : Sys2Proof.Fields) : Sys2Proof.Laws.ClassCode.Statement (.bge c) := rfl

theorem Sys2Proof.Laws.FieldsReplaced.bge (c : Sys2Proof.Fields) : Sys2Proof.Laws.FieldsReplaced.Statement (.bge c) :=
  fun _ => ⟨rfl, rfl⟩

theorem Sys2Proof.Laws.ClassCode.bltu (c : Sys2Proof.Fields) : Sys2Proof.Laws.ClassCode.Statement (.bltu c) := rfl

theorem Sys2Proof.Laws.FieldsReplaced.bltu (c : Sys2Proof.Fields) : Sys2Proof.Laws.FieldsReplaced.Statement (.bltu c) :=
  fun _ => ⟨rfl, rfl⟩

theorem Sys2Proof.Laws.ClassCode.bgeu (c : Sys2Proof.Fields) : Sys2Proof.Laws.ClassCode.Statement (.bgeu c) := rfl

theorem Sys2Proof.Laws.FieldsReplaced.bgeu (c : Sys2Proof.Fields) : Sys2Proof.Laws.FieldsReplaced.Statement (.bgeu c) :=
  fun _ => ⟨rfl, rfl⟩

theorem Sys2Proof.Laws.ClassCode.csrrw (c : Sys2Proof.Fields) : Sys2Proof.Laws.ClassCode.Statement (.csrrw c) := rfl

theorem Sys2Proof.Laws.FieldsReplaced.csrrw (c : Sys2Proof.Fields) : Sys2Proof.Laws.FieldsReplaced.Statement (.csrrw c) :=
  fun _ => ⟨rfl, rfl⟩

theorem Sys2Proof.Laws.ClassCode.csrrwi (c : Sys2Proof.Fields) : Sys2Proof.Laws.ClassCode.Statement (.csrrwi c) := rfl

theorem Sys2Proof.Laws.FieldsReplaced.csrrwi (c : Sys2Proof.Fields) : Sys2Proof.Laws.FieldsReplaced.Statement (.csrrwi c) :=
  fun _ => ⟨rfl, rfl⟩

theorem Sys2Proof.Laws.ClassCode.csrrs (c : Sys2Proof.Fields) : Sys2Proof.Laws.ClassCode.Statement (.csrrs c) := rfl

theorem Sys2Proof.Laws.FieldsReplaced.csrrs (c : Sys2Proof.Fields) : Sys2Proof.Laws.FieldsReplaced.Statement (.csrrs c) :=
  fun _ => ⟨rfl, rfl⟩

theorem Sys2Proof.Laws.ClassCode.csrrsi (c : Sys2Proof.Fields) : Sys2Proof.Laws.ClassCode.Statement (.csrrsi c) := rfl

theorem Sys2Proof.Laws.FieldsReplaced.csrrsi (c : Sys2Proof.Fields) : Sys2Proof.Laws.FieldsReplaced.Statement (.csrrsi c) :=
  fun _ => ⟨rfl, rfl⟩

theorem Sys2Proof.Laws.ClassCode.csrrc (c : Sys2Proof.Fields) : Sys2Proof.Laws.ClassCode.Statement (.csrrc c) := rfl

theorem Sys2Proof.Laws.FieldsReplaced.csrrc (c : Sys2Proof.Fields) : Sys2Proof.Laws.FieldsReplaced.Statement (.csrrc c) :=
  fun _ => ⟨rfl, rfl⟩

theorem Sys2Proof.Laws.ClassCode.csrrci (c : Sys2Proof.Fields) : Sys2Proof.Laws.ClassCode.Statement (.csrrci c) := rfl

theorem Sys2Proof.Laws.FieldsReplaced.csrrci (c : Sys2Proof.Fields) : Sys2Proof.Laws.FieldsReplaced.Statement (.csrrci c) :=
  fun _ => ⟨rfl, rfl⟩

theorem Sys2Proof.Laws.ClassCode.ecall (c : Sys2Proof.Fields) : Sys2Proof.Laws.ClassCode.Statement (.ecall c) := rfl

theorem Sys2Proof.Laws.FieldsReplaced.ecall (c : Sys2Proof.Fields) : Sys2Proof.Laws.FieldsReplaced.Statement (.ecall c) :=
  fun _ => ⟨rfl, rfl⟩

theorem Sys2Proof.Laws.ClassCode.mret (c : Sys2Proof.Fields) : Sys2Proof.Laws.ClassCode.Statement (.mret c) := rfl

theorem Sys2Proof.Laws.FieldsReplaced.mret (c : Sys2Proof.Fields) : Sys2Proof.Laws.FieldsReplaced.Statement (.mret c) :=
  fun _ => ⟨rfl, rfl⟩

theorem Sys2Proof.Laws.ClassCode.fence (c : Sys2Proof.Fields) : Sys2Proof.Laws.ClassCode.Statement (.fence c) := rfl

theorem Sys2Proof.Laws.FieldsReplaced.fence (c : Sys2Proof.Fields) : Sys2Proof.Laws.FieldsReplaced.Statement (.fence c) :=
  fun _ => ⟨rfl, rfl⟩

theorem Sys2Proof.Laws.ClassCode.other (c : Sys2Proof.Fields) : Sys2Proof.Laws.ClassCode.Statement (.other c) := rfl

theorem Sys2Proof.Laws.FieldsReplaced.other (c : Sys2Proof.Fields) : Sys2Proof.Laws.FieldsReplaced.Statement (.other c) :=
  fun _ => ⟨rfl, rfl⟩
end

