-- ==== Sys2Proof/Tests/Slice0.lean ====
section
/-! SUPPORT. Small tests, one step each, expected values from the spec (95_test_vectors.md unless said otherwise), and a
witness for every obligation with hypotheses. -/

namespace Sys2Proof.Tests

open Sys2Proof Sys2Proof.Machine

/-! ### Helpers -/

/-- The start state of 95_test_vectors.md part 2: x[i] = 0xA5A5A500 + i, RAM bytes 0x1000 to 0x1007 as listed there. -/
def start : State :=
  State.launch Config.reference (Vector.ofFn fun i => 0xA5A5A500 + BitVec.ofNat 32 i.val)
    [(0x1000, 0xEF), (0x1001, 0xCD), (0x1002, 0xAB), (0x1003, 0x89), (0x1004, 0x80), (0x1005, 0x7F), (0x1007, 0x80)] []

/-- The start state of section 2.4: `csr[0x340]` = 0x0000F0F5. -/
def startCsr : State := { start with csr := [(0x340, 0x0000F0F5)] }

/-- A platform with one readable and writable peripheral window of 256 bytes at 0x40000000 beside the reference RAM. -/
def withDevice : Config :=
  { Config.reference with windows := [Window.referenceRam, { Window.referenceRam with base := 0x40000000, size := 256, kind := .device }] }

/-- The start state on that platform. -/
def startDevice : State := { start with cfg := withDevice }

/-- Operand fields of loads and stores. -/
def mem (rd : RegIndex) (rs2Data aluOut : Word) : Fields := ⟨rd, 0, 0, 0, rs2Data, aluOut⟩

/-- Operand fields of CSR commands. -/
def csr (rd : RegIndex) (a : CsrAddr) (immZ rs1Data : Word) : Fields := ⟨rd, a, immZ, rs1Data, 0, 0⟩

/-- Something of the next state, `none` if there is none. -/
def after {α : Type} (o : Host.Outcome State Fault Refusal) (f : State → α) : Option α :=
  match o with
  | .next s => some (f s)
  | .fault _ => none
  | .refused _ => none

/-- The fault, if it is one. -/
def faultOf (o : Host.Outcome State Fault Refusal) : Option Fault :=
  match o with
  | .next _ => none
  | .fault f => some f
  | .refused _ => none

/-- The refusal, if it is one. -/
def refusalOf (o : Host.Outcome State Fault Refusal) : Option Refusal :=
  match o with
  | .next _ => none
  | .fault _ => none
  | .refused r => some r

/-! ### WellFormed: a term that each check refuses -/

theorem test_reserved_word_ill_formed : CommandWord.wellFormed 0x00000000000000000000000000000000000018 = false := by
  decide

theorem test_empty_window_ill_formed : Window.wellFormed { Window.referenceRam with size := 0 } = false := by decide

theorem test_oversized_window_ill_formed :
    Window.wellFormed { Window.referenceRam with size := 2 ^ 32 + 1 } = false := by decide

theorem test_config_with_ill_formed_window :
    Config.wellFormed { Config.reference with windows := [{ Window.referenceRam with size := 0 }] } = false := by decide

theorem test_reference_well_formed : Config.wellFormed Config.reference = true := by decide

/-! ### Decoding: one word per class, its bits laid out from the field table of R81 and the code table of R82 -/

theorem test_decode_lb :
    decode 0x00000400048D159E20000000000000004C0060 =
      .ok (.lb ⟨3, 0x300, 1, 0x80000000, 0x12345678, 0x00001000⟩) := by decide

theorem test_decode_lbu :
    decode 0x00000401048D159E20000000400000008C0481 =
      .ok (.lbu ⟨4, 0x301, 2, 0x80000001, 0x12345678, 0x00001004⟩) := by decide

theorem test_decode_lh :
    decode 0x00000402048D159E2000000080000000CC08A2 =
      .ok (.lh ⟨5, 0x302, 3, 0x80000002, 0x12345678, 0x00001008⟩) := by decide

theorem test_decode_lhu :
    decode 0x00000403048D159E20000000C00000010C0CC3 =
      .ok (.lhu ⟨6, 0x303, 4, 0x80000003, 0x12345678, 0x0000100C⟩) := by decide

theorem test_decode_lw :
    decode 0x00000404048D159E20000001000000014C10E4 =
      .ok (.lw ⟨7, 0x304, 5, 0x80000004, 0x12345678, 0x00001010⟩) := by decide

theorem test_decode_sb :
    decode 0x00000405048D159E20000001400000018C1505 =
      .ok (.sb ⟨8, 0x305, 6, 0x80000005, 0x12345678, 0x00001014⟩) := by decide

theorem test_decode_sh :
    decode 0x00000406048D159E2000000180000001CC1926 =
      .ok (.sh ⟨9, 0x306, 7, 0x80000006, 0x12345678, 0x00001018⟩) := by decide

theorem test_decode_sw :
    decode 0x00000407048D159E20000001C00000020C1D47 =
      .ok (.sw ⟨10, 0x307, 8, 0x80000007, 0x12345678, 0x0000101C⟩) := by decide

theorem test_decode_beq :
    decode 0x00000408048D159E20000002000000024C2168 =
      .ok (.beq ⟨11, 0x308, 9, 0x80000008, 0x12345678, 0x00001020⟩) := by decide

theorem test_decode_bne :
    decode 0x00000409048D159E20000002400000028C2589 =
      .ok (.bne ⟨12, 0x309, 10, 0x80000009, 0x12345678, 0x00001024⟩) := by decide

theorem test_decode_blt :
    decode 0x0000040A048D159E2000000280000002CC29AA =
      .ok (.blt ⟨13, 0x30A, 11, 0x8000000A, 0x12345678, 0x00001028⟩) := by decide

theorem test_decode_bge :
    decode 0x0000040B048D159E20000002C00000030C2DCB =
      .ok (.bge ⟨14, 0x30B, 12, 0x8000000B, 0x12345678, 0x0000102C⟩) := by decide

theorem test_decode_bltu :
    decode 0x0000040C048D159E20000003000000034C31EC =
      .ok (.bltu ⟨15, 0x30C, 13, 0x8000000C, 0x12345678, 0x00001030⟩) := by decide

theorem test_decode_bgeu :
    decode 0x0000040D048D159E20000003400000038C360D =
      .ok (.bgeu ⟨16, 0x30D, 14, 0x8000000D, 0x12345678, 0x00001034⟩) := by decide

theorem test_decode_csrrw :
    decode 0x0000040E048D159E2000000380000003CC3A2E =
      .ok (.csrrw ⟨17, 0x30E, 15, 0x8000000E, 0x12345678, 0x00001038⟩) := by decide

theorem test_decode_csrrwi :
    decode 0x0000040F048D159E20000003C00000040C3E4F =
      .ok (.csrrwi ⟨18, 0x30F, 16, 0x8000000F, 0x12345678, 0x0000103C⟩) := by decide

theorem test_decode_csrrs :
    decode 0x00000410048D159E20000004000000044C4270 =
      .ok (.csrrs ⟨19, 0x310, 17, 0x80000010, 0x12345678, 0x00001040⟩) := by decide

theorem test_decode_csrrsi :
    decode 0x00000411048D159E20000004400000048C4691 =
      .ok (.csrrsi ⟨20, 0x311, 18, 0x80000011, 0x12345678, 0x00001044⟩) := by decide

theorem test_decode_csrrc :
    decode 0x00000412048D159E2000000480000004CC4AB2 =
      .ok (.csrrc ⟨21, 0x312, 19, 0x80000012, 0x12345678, 0x00001048⟩) := by decide

theorem test_decode_csrrci :
    decode 0x00000413048D159E20000004C00000050C4ED3 =
      .ok (.csrrci ⟨22, 0x313, 20, 0x80000013, 0x12345678, 0x0000104C⟩) := by decide

theorem test_decode_ecall :
    decode 0x00000414048D159E20000005000000054C52F4 =
      .ok (.ecall ⟨23, 0x314, 21, 0x80000014, 0x12345678, 0x00001050⟩) := by decide

theorem test_decode_mret :
    decode 0x00000415048D159E20000005400000058C5715 =
      .ok (.mret ⟨24, 0x315, 22, 0x80000015, 0x12345678, 0x00001054⟩) := by decide

theorem test_decode_fence :
    decode 0x00000416048D159E2000000580000005CC5B36 =
      .ok (.fence ⟨25, 0x316, 23, 0x80000016, 0x12345678, 0x00001058⟩) := by decide

theorem test_decode_other :
    decode 0x00000417048D159E20000005C00000060C5F57 =
      .ok (.other ⟨26, 0x317, 24, 0x80000017, 0x12345678, 0x0000105C⟩) := by decide
/-! ### Decoding: the reserved words E6 and E7, and the host's table words -/

theorem test_decode_reserved_31 :
    decode 0x00000000C0000000000000000000000000003F = .error (.reservedOp 31) := by decide

theorem test_decode_reserved_24 :
    decode 0x00000000000000000000000000000000000018 = .error (.reservedOp 24) := by decide

theorem test_table_word_other : decodeTableWord 8 0x17 = some (.other ⟨0, 0, 0, 0, 0, 0⟩) := by decide

theorem test_table_word_reserved : decodeTableWord 8 0x18 = none := by decide

theorem test_table_word_too_long : decodeTableWord 152 (2 ^ 150) = none := by decide

theorem test_step_runs_table_word :
    after (step (State.reset.withFetchWord 8 0x14)) (fun s => s.readCsr 0x342) = some 0x0000000B := by decide

theorem test_step_refuses_reserved :
    refusalOf (step (State.reset.withFetchWord 8 0x1F)) = some (.reservedOp 31) := by decide

theorem test_step_without_command : refusalOf (step State.reset) = some .noCommand := by decide

/-! ### Loads (section 2.1) -/

theorem test_lb_negative_L1 : after (exec (.lb (mem 5 0 0x1000)) start) (·.readReg 5) = some 0xFFFFFFEF := by decide
theorem test_lb_positive_L3 : after (exec (.lb (mem 5 0 0x1005)) start) (·.readReg 5) = some 0x0000007F := by decide
theorem test_lbu_L2 : after (exec (.lbu (mem 5 0 0x1000)) start) (·.readReg 5) = some 0x000000EF := by decide
theorem test_lbu_ignores_other_fields_L19 :
    after (exec (.lbu ⟨5, 0xFFF, 0xFFFFFFFF, 0xFFFFFFFF, 0xFFFFFFFF, 0x1000⟩) start)
      (fun s => (s.readReg 5, s.csr)) = some (0x000000EF, []) := by decide
theorem test_lh_L6 : after (exec (.lh (mem 6 0 0x1000)) start) (·.readReg 6) = some 0xFFFFCDEF := by decide
theorem test_lh_misaligned_L16 :
    faultOf (exec (.lh (mem 6 0 0x1001)) start) = some (.writebackMem .read .b2 0x1001) := by decide
theorem test_lhu_L10 : after (exec (.lhu (mem 6 0 0x1006)) start) (·.readReg 6) = some 0x00008000 := by decide
theorem test_lw_L12 : after (exec (.lw (mem 7 0 0x1004)) start) (·.readReg 7) = some 0x80007F80 := by decide
theorem test_lw_zero_register_still_faults_L15 :
    faultOf (exec (.lw (mem 0 0 0x2000)) start) = some (.writebackMem .read .b4 0x2000) := by decide

/-! ### Stores (section 2.2) -/

theorem test_sb_T1 :
    after (exec (.sb (mem 0 0xFFFFFF12 0x1003)) start) (fun s => s.ramValue .b4 0x1000) = some 0x12ABCDEF := by decide
theorem test_sb_below_ram_T7 :
    faultOf (exec (.sb (mem 0 1 0x0FFF)) start) = some (.writebackMem .write .b1 0x0FFF) := by decide
theorem test_sh_T2 :
    after (exec (.sh (mem 0 0xABCDEF12 0x1002)) start) (fun s => (s.byteAt 0x1002, s.byteAt 0x1003)) =
      some (0x12, 0xEF) := by decide
theorem test_sw_T4 :
    after (exec (.sw (mem 9 0x12345678 0x1008)) start)
      (fun s => (s.byteAt 0x1008, s.byteAt 0x1009, s.byteAt 0x100A, s.byteAt 0x100B, s.readReg 9)) =
      some (0x78, 0x56, 0x34, 0x12, 0xA5A5A509) := by decide
theorem test_sw_zero_unlists_its_bytes :
    after (exec (.sw (mem 0 0 0x1000)) start) (·.mem) = some [(0x1004, 0x80), (0x1005, 0x7F), (0x1007, 0x80)] := by decide

/-! ### Branches (section 2.3) -/

theorem test_beq_B1 : after (exec (.beq ⟨5, 0x300, 0, 1, 1, 1⟩) start) id = some start := by decide
theorem test_bne_B2 : after (exec (.bne ⟨31, 0, 0, 0, 0, 0xFFFFFFFF⟩) start) id = some start := by decide
theorem test_blt_B3 : after (exec (.blt ⟨0, 0, 0, 0x80000000, 0, 1⟩) start) id = some start := by decide
theorem test_bge_B4 : after (exec (.bge ⟨0, 0, 0, 0, 0, 0⟩) start) id = some start := by decide
theorem test_bltu_B5 : after (exec (.bltu ⟨0, 0, 0, 0, 0x12345678, 0x1000⟩) start) id = some start := by decide
theorem test_bgeu_B6 : after (exec (.bgeu ⟨0, 0, 0, 0, 0, 0x2000⟩) start) id = some start := by decide

/-! ### CSR instructions (section 2.4) -/

/-- The CSR at 0x340 and register 4 after a command. -/
def csrAnd4 (o : Host.Outcome State Fault Refusal) : Option (Word × Word) :=
  after o fun s => (s.readCsr 0x340, s.readReg 4)

theorem test_csrrw_X1 :
    csrAnd4 (exec (.csrrw (csr 4 0x340 0 0x22222222)) startCsr) = some (0x22222222, 0x0000F0F5) := by decide
theorem test_csrrw_read_only_in_the_isa_X14 :
    after (exec (.csrrw (csr 4 0xC00 0 0x1234)) startCsr) (fun s => (s.readCsr 0xC00, s.readReg 4)) =
      some (0x00001234, 0) := by decide
theorem test_csrrwi_X3 :
    csrAnd4 (exec (.csrrwi (csr 4 0x340 0x1F 0)) startCsr) = some (0x0000001F, 0x0000F0F5) := by decide
theorem test_csrrs_ignores_imm_X15 :
    csrAnd4 (exec (.csrrs (csr 4 0x340 0xFFFFFFFF 0x0F)) startCsr) = some (0x0000F0FF, 0x0000F0F5) := by decide
theorem test_csrrsi_ignores_rs1_X16 :
    csrAnd4 (exec (.csrrsi (csr 4 0x340 0x0A 0xFFFFFFFF)) startCsr) = some (0x0000F0FF, 0x0000F0F5) := by decide
theorem test_csrrsi_all_32_bits_X17 :
    csrAnd4 (exec (.csrrsi (csr 4 0x340 0xFFFF0000 0)) startCsr) = some (0xFFFFF0F5, 0x0000F0F5) := by decide
theorem test_csrrc_X8 :
    csrAnd4 (exec (.csrrc (csr 4 0x340 0 0x00000FF0)) startCsr) = some (0x0000F005, 0x0000F0F5) := by decide
theorem test_csrrc_maps_highest_address_X13 :
    after (exec (.csrrc (csr 4 0xFFF 0 0xFFFFFFFF)) startCsr) (fun s => (s.readCsr 0xFFF, s.csrMapped 0xFFF)) =
      some (0, true) := by decide
theorem test_csrrci_keeps_high_bits_X11 :
    csrAnd4 (exec (.csrrci (csr 4 0x340 0x1F 0)) startCsr) = some (0x0000F0E0, 0x0000F0F5) := by decide

/-! ### System classes and OTHER (sections 2.5, 2.6) -/

theorem test_ecall_overwrites_Y3 :
    after (exec (.ecall ⟨5, 0x342, 0, 0, 0, 0x77⟩) { start with csr := [(0x342, 0xFFFFFFFF)] })
      (fun s => (s.readCsr 0x342, s.readReg 5)) = some (0x0000000B, 0xA5A5A505) := by decide
theorem test_mret_Y4 : after (exec (.mret (mem 7 0 0xDEADBEEF)) start) id = some start := by decide
theorem test_fence_Y5 : after (exec (.fence (mem 7 0 0xDEADBEEF)) start) id = some start := by decide
theorem test_other_Y6 : after (exec (.other (mem 7 0 0xDEADBEEF)) start) (·.readReg 7) = some 0xDEADBEEF := by decide
theorem test_other_rd_zero_O2 : after (exec (.other (mem 0 0 0x2A)) start) id = some start := by decide

/-! ### Parameters: a peripheral, the probe, the byte order, a window across the end of the address space (by hand from R55,
R57, R101) -/

theorem test_device_load_rd_zero_is_seen_once :
    after (exec (.lw (mem 0 0 0x40000010)) startDevice) (fun s => s.devices.length) = some 1 := by decide

theorem test_device_store_is_seen :
    after (exec (.sb (mem 0 0xABCDEF12 0x40000003)) startDevice) (·.devices) =
      some [⟨.write, .b1, 0x40000003, 0x12⟩] := by decide

theorem test_probe_disturbs_a_peripheral_on_a_branch :
    after (exec (.beq (mem 0 0 0)) { startDevice with cfg := { withDevice with diagProbe := some ⟨.fixed 0x40000000, .b4⟩ } })
      (fun s => s.devices.length) = some 1 := by decide

theorem test_big_endian_halfword :
    after (exec (.lhu (mem 6 0 0x1000)) { start with cfg := { Config.reference with byteOrder := .big } })
      (·.readReg 6) = some 0x0000EFCD := by decide

theorem test_unaligned_store_wraps_where_admitted :
    after (exec (.sh (mem 0 0x1234 0xFFFFFFFF))
      { start with cfg := { Config.reference with
          windows := [{ Window.referenceRam with base := 0x80000000, size := 2 ^ 32, aligned := false }] } })
      (fun s => (s.byteAt 0xFFFFFFFF, s.byteAt 0)) = some (0x34, 0x12) := by decide

/-! ### The upstream of R88 and R89 (words of section P1 and P3, with the immediate fields read off the words) -/

theorem test_upstream_sh :
    upstreamCommand 0x00531323 0 ((start.writeReg 5 0x89ABCDEF).writeReg 6 0x1000) =
      some (.sh ⟨6, 5, 6, 0x1000, 0x89ABCDEF, 0x1006⟩) := by decide
theorem test_upstream_sw :
    upstreamCommand 0x00532023 0 ((State.reset.writeReg 5 0x89ABCDEF).writeReg 6 0x00001000) =
      some (.sw ⟨0, 0x005, 6, 0x00001000, 0x89ABCDEF, 0x00001000⟩) := by decide
theorem test_upstream_lw :
    upstreamCommand 0x00432583 0 (State.reset.writeReg 6 0x00001000) =
      some (.lw ⟨11, 0x004, 6, 0x00001000, 0, 0x00001004⟩) := by decide
theorem test_upstream_csrrci :
    upstreamCommand 0x3401F473 0 State.reset = some (.csrrci ⟨8, 0x340, 3, 0, 0, 0⟩) := by decide
theorem test_upstream_bne : (upstreamCommand 0xFE009CE3 1 start).map family = some .branch := by decide
theorem test_upstream_mret : (upstreamCommand 0x30200073 0 start).map family = some .trapReturn := by decide
theorem test_upstream_ebreak_is_no_class : upstreamCommand 0x00100073 0 start = none := by decide

/-! ### Witnesses: for each obligation with hypotheses, operands and a state that meet them, clause by clause -/

/-- The start state with one command, an ECALL, waiting. -/
def startEcall : State := { start with commands := [0x14] }

theorem witness_DecodeThenEncodeGivesTheWordBack_and_DecodedFieldsStandAtTheirBits :
    decode 0x3FFFFFFFFFFFFFFFFFFFFFFFFFFFFFFFFFFFF7 =
      .ok (.other ⟨31, 0xFFF, 0xFFFFFFFF, 0xFFFFFFFF, 0xFFFFFFFF, 0xFFFFFFFF⟩) := by decide

theorem witness_ReservedCodesAndOnlyTheyAreRefused :
    24 ≤ (opField 0x18).toNat ∧ (opField 0x17).toNat < 24 := by decide

theorem witness_StepRunsTheDriversNextCommand :
    startEcall.commands = 0x14 :: [] ∧ decode 0x14 = .ok (.ecall ⟨0, 0, 0, 0, 0, 0⟩) ∧ start.commands = [] ∧
    startEcall.cfg.onFault = .endRun := by decide

theorem witness_StepRunsTheWordHandedOver : decodeTableWord 8 0x04 = some (.lw ⟨0, 0, 0, 0, 0, 0⟩) := by decide

theorem witness_RegisterZeroIsHardwired : ∃ t, exec (.other (mem 0 0 0x2A)) start = .next t := ⟨_, rfl⟩

theorem witness_OnlyTheListedClassesWriteTheirDestination :
    (∃ t, exec (.mret (mem 7 0 1)) start = .next t) ∧ writesRegister (.mret (mem 7 0 1)) = false := ⟨⟨_, rfl⟩, by decide⟩

theorem witness_NoTransactionReadsTheRegisterFile :
    faultOf (exec (.lw (mem 7 0 0x2000)) start) = some (.writebackMem .read .b4 0x2000) ∧
    (after (exec (.lw (mem 7 0 0x1000)) start) (fun _ => true) = some true) ∧
    (mem 7 0 0x1000).rd ≠ 0 ∧ writesRegister (.lw (mem 7 0 0x1000)) = true := by decide

theorem witness_CsrIsPlainStorage : start.csrMapped 0x340 = false ∧ (0x341 : CsrAddr) ≠ 0x340 := by decide

theorem witness_CsrRules_rd : (csr 4 0x340 0 1).rd ≠ 0 ∧ (csr 0 0x340 0 1).rd = 0 ∧ (5 : RegIndex) ≠ (csr 4 0x340 0 1).rd := by
  decide

theorem witness_CsrImmediateFormsAreRegisterForms :
    startCsr.cfg.diagProbe = none ∧ (csr 4 0x340 31 0).immZ.toNat ≤ 31 ∧
    (∃ t, exec (.csrrwi (csr 4 0x340 31 0)) startCsr = .next t) ∧
    (∃ t, exec (.csrrsi (csr 4 0x340 31 0)) startCsr = .next t) ∧
    ∃ t, exec (.csrrci (csr 4 0x340 31 0)) startCsr = .next t :=
  ⟨rfl, by decide, ⟨_, rfl⟩, ⟨_, rfl⟩, ⟨_, rfl⟩⟩

theorem witness_LoadsFromRamAndPeripherals_byte :
    Config.target startDevice.cfg .read .b1 0x2000 = none ∧ Config.target startDevice.cfg .read .b1 0x1FFF = some .ram ∧
    Config.target startDevice.cfg .read .b1 0x400000FF = some .device := by decide

theorem witness_LoadsFromRamAndPeripherals_half :
    Config.target startDevice.cfg .read .b2 0x1FFF = none ∧ Config.target startDevice.cfg .read .b2 0x1FFE = some .ram ∧
    Config.target startDevice.cfg .read .b2 0x400000FE = some .device := by decide

theorem witness_LoadsFromRamAndPeripherals_word :
    Config.target startDevice.cfg .read .b4 0x1FFE = none ∧ Config.target startDevice.cfg .read .b4 0x1FFC = some .ram ∧
    Config.target startDevice.cfg .read .b4 0x400000FC = some .device := by decide

theorem witness_StoresToRamAndPeripherals_byte :
    startDevice.Inv ∧ Config.target startDevice.cfg .write .b1 0x0FFF = none ∧
    Config.target startDevice.cfg .write .b1 0x1000 = some .ram ∧
    Config.target startDevice.cfg .write .b1 0x40000000 = some .device := by decide

theorem witness_StoresToRamAndPeripherals_half :
    startDevice.Inv ∧ Config.target startDevice.cfg .write .b2 0x1001 = none ∧
    Config.target startDevice.cfg .write .b2 0x1FFE = some .ram ∧
    Config.target startDevice.cfg .write .b2 0x400000FE = some .device := by decide

theorem witness_StoresToRamAndPeripherals_word :
    startDevice.Inv ∧ Config.target startDevice.cfg .write .b4 0x1FFE = none ∧
    Config.target startDevice.cfg .write .b4 0x1FFC = some .ram ∧
    Config.target startDevice.cfg .write .b4 0x400000FC = some .device ∧
    (0 : Nat) < Width.bytes .b4 ∧ ¬ inAccess .b4 0x1FFC 0x1FFB ∧ ¬ inAccess .b4 0x1FFC 0x2000 := by decide

theorem witness_LoadClassesFollowTheirPseudocode :
    (∃ v s', memRead .b1 0x1FFF (diagProbe (.lb (mem 5 0 0x1FFF)) start) = .ok (v, s')) ∧
    (∃ v s', memRead .b2 0x1FFE (diagProbe (.lh (mem 5 0 0x1FFE)) start) = .ok (v, s')) ∧
    (∃ v s', memRead .b4 0x1FFC (diagProbe (.lw (mem 5 0 0x1FFC)) start) = .ok (v, s')) ∧
    (∃ e, memRead .b1 0x2000 (diagProbe (.lbu (mem 5 0 0x2000)) start) = .error e) ∧
    (∃ e, memRead .b2 0x1001 (diagProbe (.lhu (mem 5 0 0x1001)) start) = .error e) ∧
    ∃ e, memRead .b4 0x1002 (diagProbe (.lw (mem 5 0 0x1002)) start) = .error e :=
  ⟨⟨_, _, rfl⟩, ⟨_, _, rfl⟩, ⟨_, _, rfl⟩, ⟨_, rfl⟩, ⟨_, rfl⟩, ⟨_, rfl⟩⟩

theorem witness_StoreClassesFollowTheirPseudocode :
    (∃ s', memWrite .b1 0x1FFF 0x12 (diagProbe (.sb (mem 5 0x12 0x1FFF)) start) = .ok s') ∧
    (∃ s', memWrite .b2 0x1FFE 0x12 (diagProbe (.sh (mem 5 0x12 0x1FFE)) start) = .ok s') ∧
    (∃ s', memWrite .b4 0x1FFC 0x12 (diagProbe (.sw (mem 5 0x12 0x1FFC)) start) = .ok s') ∧
    (∃ e, memWrite .b1 0x0FFF 0x12 (diagProbe (.sb (mem 5 0x12 0x0FFF)) start) = .error e) ∧
    (∃ e, memWrite .b2 0x1FFF 0x12 (diagProbe (.sh (mem 5 0x12 0x1FFF)) start) = .error e) ∧
    ∃ e, memWrite .b4 0x1FFE 0x12 (diagProbe (.sw (mem 5 0x12 0x1FFE)) start) = .error e :=
  ⟨⟨_, rfl⟩, ⟨_, rfl⟩, ⟨_, rfl⟩, ⟨_, rfl⟩, ⟨_, rfl⟩, ⟨_, rfl⟩⟩

theorem witness_AccessCompletesExactlyWhereAdmitted :
    accessForm (.lh (mem 6 0 0x1001)) = some (.read, .b2) ∧ Config.target start.cfg .read .b2 0x1001 = none ∧
    accessForm (.lh (mem 6 0 0x1000)) = some (.read, .b2) ∧ Config.target start.cfg .read .b2 0x1000 ≠ none := by decide

theorem witness_ExtensionReplicatesOrPads : (0 : Nat) < 8 ∧ (8 : Nat) ≤ 32 ∧ (31 : Nat) < 32 := by decide

theorem witness_ByteOrderOfWideValues :
    start.Inv ∧ start.cfg.byteOrder = .little ∧
    ({ start with cfg := { start.cfg with byteOrder := .big } } : State).cfg.byteOrder = .big := by decide

theorem witness_StoreThenLoadReturnsTheStoredValue :
    start.Inv ∧ (mem 5 0 0x1FFC).aluOut = (mem 0 0x12345678 0x1FFC).aluOut ∧ (mem 5 0 0x1FFC).rd ≠ 0 ∧
    Config.target start.cfg .write .b4 0x1FFC = some .ram ∧ Config.target start.cfg .read .b4 0x1FFC = some .ram ∧
    (after (exec (.sw (mem 0 0x12345678 0x1FFC)) start) (fun _ => true) = some true) ∧
    Config.target start.cfg .write .b2 0x1FFC = some .ram ∧ Config.target start.cfg .read .b2 0x1FFC = some .ram ∧
    (after (exec (.sh (mem 0 0x12345678 0x1FFC)) start) (fun _ => true) = some true) ∧
    Config.target start.cfg .write .b1 0x1FFC = some .ram ∧ Config.target start.cfg .read .b1 0x1FFC = some .ram ∧
    (after (exec (.sb (mem 0 0x12345678 0x1FFC)) start) (fun _ => true) = some true) := by decide

theorem witness_OtherWritesTheResult :
    (mem 31 0 1).rd ≠ 0 ∧ (mem 0 0 1).rd = 0 ∧ start.cfg.diagProbe = none := by decide

theorem witness_FaultExactlyWhenTheAccessIsRefused :
    faultOf (exec (.sw (mem 0 1 0x2000)) start) = some (.writebackMem .write .b4 0x2000) ∧
    accessForm (.sw (mem 0 1 0x2000)) = some (.write, .b4) ∧ Config.target start.cfg .write .b4 0x2000 = none := by decide

theorem witness_EverythingElseIsTotal : accessForm (.fence (mem 0 0 0x2000)) = none := by decide

theorem witness_FaultCommitsNothing :
    (writeback (.lh (mem 12 0 0x1001)) start).2 = .fault .read .b2 0x1001 ∧ start.cfg.diagProbe = none := by decide

/-- A load word of address 0 waits, which the reference map does not admit, on a platform whose driver injects traps. -/
def startTrapping : State :=
  { start with cfg := { Config.reference with onFault := .injectTrap }, commands := [0x04, 0x14] }

theorem test_end_run_is_the_default : faultOf (step { startTrapping with cfg := Config.reference }) =
    some (.writebackMem .read .b4 0) := by decide

theorem test_injected_trap_goes_on_with_the_next_command : after (step startTrapping) (·.commands.length) = some 1 := by
  show some _ = some 1
  exact congrArg (fun c => some (List.length c)) (injectTrap_commands _ _ _)

theorem witness_TheDriverDecidesWhatAFaultDoes :
    startTrapping.commands = 0x04 :: [0x14] ∧ decode 0x04 = .ok (.lw ⟨0, 0, 0, 0, 0, 0⟩) ∧
    faultOf (exec (.lw ⟨0, 0, 0, 0, 0, 0⟩) { startTrapping with commands := [0x14] }) = some (.writebackMem .read .b4 0) ∧
    startTrapping.cfg.onFault = .injectTrap ∧ Config.reference.onFault = .endRun := by decide

theorem witness_StepNeverRefusesAValidCommand :
    startEcall.commands = 0x14 :: [] ∧ CommandWord.wellFormed 0x14 = true := by decide

theorem witness_EachClassChangesOnlyWhatItsRowLists :
    (∃ t, exec (.ecall (mem 0 0 0)) start = .next t) ∧ csrWritten (.ecall (mem 0 0 0)) start.cfg = some 0x342 ∧
    (∃ t, exec (.fence (mem 0 0 0)) start = .next t) ∧ csrWritten (.fence (mem 0 0 0)) start.cfg = none ∧
    writesRegister (.fence (mem 0 0 0)) = false ∧ accessForm (.fence (mem 0 0 0)) = none ∧
    ∀ w, family (.fence (mem 0 0 0)) ≠ .store w :=
  ⟨⟨_, rfl⟩, rfl, ⟨_, rfl⟩, rfl, rfl, rfl, by intro w h; cases h⟩

theorem witness_EachClassChangesOnlyWhatItsRowLists_access :
    start.Inv ∧ (after (exec (.sw (mem 0 1 0x1FFC)) start) (fun _ => true) = some true) ∧
    family (.sw (mem 0 1 0x1FFC)) = .store .b4 ∧ accessForm (.sw (mem 0 1 0x1FFC)) = some (.write, .b4) ∧
    ¬ inAccess .b4 0x1FFC 0x2000 ∧ faultOf (exec (.sw (mem 0 1 0x2000)) start) = some (.writebackMem .write .b4 0x2000) := by
  decide

theorem witness_PeripheralsSeeAtMostOneAccessPerTransaction :
    (∃ t, exec (.sb (mem 0 1 0x40000000)) startDevice = .next t) ∧
    (∃ t, exec (.other (mem 1 0 0x40000000)) startDevice = .next t) ∧ accessForm (.other (mem 1 0 0x40000000)) = none :=
  ⟨⟨_, rfl⟩, ⟨_, rfl⟩, rfl⟩

theorem witness_ProbeIsOneDiscardedRead :
    start.cfg.diagProbe = none ∧
    ({ withDevice with diagProbe := some ⟨.aluOut, .b4⟩ } : Config).diagProbe = some ⟨.aluOut, .b4⟩ ∧
    Config.target withDevice .read .b4 (probeAddr .aluOut (.beq (mem 0 0 0x40000000))) = some .device ∧
    Config.target withDevice .read .b4 (probeAddr .aluOut (.beq (mem 0 0 0x2000))) ≠ some .device := by decide

theorem witness_UnreadFieldsChangeNothing :
    start.cfg.diagProbe = none ∧ agreeOn (readsOf (.lw (mem 7 0 0x1000))) (mem 7 0 0x1000) ⟨7, 0xFFF, 1, 2, 3, 0x1000⟩ := by
  decide

theorem witness_ClassesWithoutAccessIgnoreMemory :
    accessForm (.csrrw (csr 4 0x340 0 1)) = none ∧ ∃ t, exec (.csrrw (csr 4 0x340 0 1)) start = .next t :=
  ⟨rfl, _, rfl⟩

theorem witness_ResetValuesAndInvariant : Memory.wf start.mem ∧ (31 : RegIndex) ≠ 0 := by decide

theorem witness_StepKeepsTheInvariant : startEcall.Inv ∧ after (step startEcall) (fun _ => true) = some true := by decide

theorem witness_RunTakesEachCommandOnceInOrder :
    ∃ t, Host.Core.run Sys2Proof.core 1 startEcall = .next t := ⟨_, rfl⟩

theorem witness_TheNextCommandSeesTheRegisterAndTheCsrJustWritten_register :
    (after (exec (.lw (mem 6 0 0x1004)) start) (fun t => (upstreamCommand 0x00532023 0 t).isSome) = some true) ∧
    writesRegister (.lw (mem 6 0 0x1004)) = true ∧ (mem 6 0 0x1004).rd ≠ 0 ∧
    BitVec.extractLsb' 15 5 (0x00532023 : BitVec 32) = (mem 6 0 0x1004).rd ∧
    BitVec.extractLsb' 20 5 (0x00532023 : BitVec 32) = (mem 5 0 0x1004).rd ∧
    (after (exec (.lw (mem 5 0 0x1004)) start) (fun t => (upstreamCommand 0x00532023 0 t).isSome) = some true) := by decide

theorem witness_TheNextCommandSeesTheRegisterAndTheCsrJustWritten_csr :
    (∃ t, exec (.csrrci (csr 4 0x340 1 0)) start = .next t) ∧ csrWritten (.csrrci (csr 4 0x340 1 0)) start.cfg = some 0x340 ∧
    (∃ t, exec (.ecall (mem 0 0 0)) start = .next t) ∧ csrWritten (.ecall (mem 0 0 0)) start.cfg = some 0x342 ∧
    family (.csrrs (csr 5 0x342 0 0)) = .csrRegister ∧ family (.csrrwi (csr 5 0x340 0 0)) = .csrImmediate ∧
    (csr 5 0x342 0 0).rd ≠ 0 :=
  ⟨⟨_, rfl⟩, rfl, ⟨_, rfl⟩, rfl, rfl, rfl, by decide⟩

theorem witness_StoredWordsAreSeenByLaterFetches :
    start.Inv ∧ Config.target start.cfg .write .b4 0x1000 = some .ram ∧
    after (exec (.sw (mem 0 0x00000073 0x1000)) start) (fun _ => true) = some true ∧
    family (.fence (mem 0 0 0)) = .memoryFence := by decide

theorem witness_EveryInstructionWordHasTheClassOfItsRow :
    (⟨0x0000707F, 0x00002023, .sw noFields⟩ : WordRow) ∈ wordRows ∧
    WordRow.fits ⟨0x0000707F, 0x00002023, .sw noFields⟩ 0x00532023 = true := by decide

end Sys2Proof.Tests
end

