-- ==== Sys2Proof/Proofs/Extension.lean ====
section
/-!
The two widenings of R12, bit by bit, and the obligation about them.
-/
namespace Sys2Proof.Machine

/-- R12: from bit `n` on, `sext32` repeats the top bit of the narrow value. -/
theorem getLsbD_sext32 {n i : Nat} (v : BitVec n) (hi : i < 32) :
    (sext32 v).getLsbD i = if i < n then v.getLsbD i else v.getLsbD (n - 1) := by
  have top : v.msb = v.getLsbD (n - 1) := BitVec.msb_eq_getLsbD_last v
  rw [sext32, BitVec.getLsbD_signExtend, top, decide_eq_true hi, Bool.true_and]

/-- R12: from bit `n` on, `zext32` pads with zeros. -/
theorem getLsbD_zext32 {n i : Nat} (v : BitVec n) (hi : i < 32) :
    (zext32 v).getLsbD i = if i < n then v.getLsbD i else false := by
  rw [zext32, BitVec.getLsbD_setWidth, decide_eq_true hi, Bool.true_and]
  split
  case isTrue => rfl
  case isFalse above => exact BitVec.getLsbD_of_ge v i (Nat.le_of_not_lt above)

/-- Settles O21, from the bits of `sext32` and of `zext32`. -/
theorem extensionReplicatesOrPads : Obligations.ExtensionReplicatesOrPads := by
  intro n v i _ _ hi
  exact ⟨getLsbD_sext32 v hi, getLsbD_zext32 v hi⟩

end Sys2Proof.Machine
end

section
/-!
The state (10_state.md): what a transaction does to the register file, the CSR bank and memory, column by column, and from
it the invariant of log 22 and the rules of the register file.
-/
namespace Sys2Proof.Machine

/-! ### What an effect does to each part of the state -/

/-- The register file after a register write depends on the register file alone. -/
theorem State.writeReg_x_congr {s t : State} (h : t.x = s.x) (i : RegIndex) (v : Word) :
    (t.writeReg i v).x = (s.writeReg i v).x := by
  by_cases hi : i = 0
  · subst hi; simpa using h
  · simp only [State.writeReg_eq _ hi, h]

/-- The register file after a transaction: one write to `rd` in the classes that issue one (R23), and as before in the
others. -/
theorem Effect.registers {i : Instr} {p t : State} (h : Effect i p t) :
    (writesRegister i = true ∧ ∃ v, t.x = (p.writeReg i.fields.rd v).x) ∨
    (writesRegister i = false ∧ t.x = p.x) := by
  cases h with
  | loadRam w f sg hf => exact .inl ⟨by simp [writesRegister, hf], _, rfl⟩
  | loadDevice w f sg hf => exact .inl ⟨by simp [writesRegister, hf], _, State.writeReg_x_congr (p.seen_x _) _ _⟩
  | storeRam w hf => exact .inr ⟨by simp [writesRegister, hf], rfl⟩
  | storeDevice w hf => exact .inr ⟨by simp [writesRegister, hf], rfl⟩
  | csr v hf =>
    refine .inl ⟨?_, _, State.writeReg_x_congr (p.writeCsr_x _ _) _ _⟩
    rcases hf with hf | hf <;> simp [writesRegister, hf]
  | environmentCall hf => exact .inr ⟨by simp [writesRegister, hf], rfl⟩
  | nothing hf =>
    refine .inr ⟨?_, rfl⟩
    rcases hf with hf | hf | hf <;> simp [writesRegister, hf]
  | residual hf => exact .inl ⟨by simp [writesRegister, hf], _, rfl⟩

/-- The CSR bank after a transaction: one write to the CSR that the class lists, or as before (R104). -/
theorem Effect.csrBank {i : Instr} {p t : State} (h : Effect i p t) :
    (∃ a v, csrWritten i p.cfg = some a ∧ t.csr = CsrBank.insert p.csr a v) ∨
    (csrWritten i p.cfg = none ∧ t.csr = p.csr) := by
  cases h with
  | loadRam w f sg hf => exact .inr ⟨by simp [csrWritten, hf], by simp⟩
  | loadDevice w f sg hf => exact .inr ⟨by simp [csrWritten, hf], by simp⟩
  | storeRam w hf => exact .inr ⟨by simp [csrWritten, hf], rfl⟩
  | storeDevice w hf => exact .inr ⟨by simp [csrWritten, hf], rfl⟩
  | csr v hf =>
    refine .inl ⟨i.fields.csr, v, ?_, by simp⟩
    rcases hf with hf | hf <;> simp [csrWritten, hf]
  | environmentCall hf => exact .inl ⟨p.cfg.ecallCauseCsr, p.cfg.ecallCauseCode, by simp [csrWritten, hf], rfl⟩
  | nothing hf =>
    refine .inr ⟨?_, rfl⟩
    rcases hf with hf | hf | hf <;> simp [csrWritten, hf]
  | residual hf => exact .inr ⟨by simp [csrWritten, hf], by simp⟩

/-- Memory after a transaction: the RAM write of a store, or as before (R104). -/
theorem Effect.memory {i : Instr} {p t : State} (h : Effect i p t) :
    t.mem = p.mem ∨
    ∃ w, family i = .store w ∧ t.mem = (p.writeRam w i.fields.aluOut (storeData w i.fields)).mem := by
  cases h with
  | storeRam w hf => exact .inr ⟨w, hf, rfl⟩
  | loadRam | loadDevice | storeDevice | csr | environmentCall | nothing | residual =>
    exact .inl (by simp [takeEnvironmentCall])

/-- No transaction reaches the cell behind register 0 (R22). -/
theorem Effect.cell_zero {i : Instr} {p t : State} (h : Effect i p t) : t.x[0] = p.x[0] := by
  rcases h.registers with ⟨-, v, e⟩ | ⟨-, e⟩
  · simpa only [e] using State.writeReg_cell_zero p i.fields.rd v
  · simp only [e]

/-- No register but `rd` changes in a transaction, and none at all with `rd` = 0 (R107). -/
theorem Effect.onlyRegister_rd {i : Instr} {p t : State} (h : Effect i p t) : onlyRegister i.fields.rd p t := by
  rcases h.registers with ⟨-, v, e⟩ | ⟨-, e⟩
  · refine ⟨fun j hj => ?_, fun hrd => ?_⟩
    · rw [State.readReg_congr e, State.readReg_writeReg_of_ne p hj]
    · rw [e, hrd]; exact congrArg State.x (State.writeReg_zero p v)
  · exact ⟨fun j _ => State.readReg_congr e j, fun _ => e⟩

/-! ### The invariant of log 22 -/

/-- A transaction keeps the invariant. -/
theorem Effect.inv {i : Instr} {p t : State} (h : Effect i p t) (hp : p.Inv) : t.Inv := by
  obtain ⟨hx, hcsr, hmem⟩ := hp
  refine ⟨h.cell_zero.trans hx, ?_, ?_⟩
  · rcases h.csrBank with ⟨a, v, -, e⟩ | ⟨-, e⟩ <;> rw [e]
    · exact CsrBank.wf_insert hcsr a v
    · exact hcsr
  · rcases h.memory with e | ⟨w, -, e⟩ <;> rw [e]
    · exact hmem
    · exact wf_writeBytes _ w _ _ _ hmem

/-- Phase 0 keeps the invariant, which does not look at the peripherals. -/
theorem diagProbe_inv (i : Instr) {s : State} (h : s.Inv) : (diagProbe i s).Inv := by
  simpa [State.Inv] using h

/-- An injected trap keeps the invariant: it writes CSRs only (log 25). -/
theorem injectTrap_inv (i : Instr) (f : Fault) {s : State} (h : s.Inv) : (injectTrap i f s).Inv := by
  obtain ⟨hx, hcsr, hmem⟩ := h
  exact ⟨by simpa using hx, State.wf_writeCsrs hcsr _, by simpa using hmem⟩

/-- What the driver makes of a transaction keeps the invariant, whatever `ON_FAULT` says. -/
theorem driverTakes_inv {i : Instr} {s t : State} (hs : s.Inv) (h : driverTakes i s (exec i s) = .next t) :
    t.Inv := by
  rcases driverTakes_cases i s with ⟨u, -, e, hu⟩ | ⟨f, -, ⟨-, e⟩ | ⟨-, e⟩⟩ <;> rw [e] at h <;> cases h
  · exact hu.inv (diagProbe_inv i hs)
  · exact injectTrap_inv i f (diagProbe_inv i hs)

/-- Settles O40: a step that answers next is the driver's handling of a transaction that began with the same registers,
CSRs and memory. -/
theorem stepKeepsTheInvariant : Obligations.StepKeepsTheInvariant := by
  intro s t hs h
  rcases step_cases s with ⟨-, e⟩ | ⟨w, rest, -, ⟨code, -, e⟩ | ⟨i, -, e⟩⟩ <;> rw [e] at h
  · cases h
  · cases h
  · exact driverTakes_inv (s := { s with commands := rest }) hs h

/-! ### The register file -/

/-- Settles O8: no effect of a transaction reaches the cell behind register 0. -/
theorem registerZeroIsHardwired : Obligations.RegisterZeroIsHardwired := by
  refine ⟨fun s v => ⟨State.readReg_zero s, State.writeReg_zero s v⟩, fun i s t h => ⟨State.readReg_zero t, ?_⟩⟩
  simpa using (exec_next h).cell_zero

/-- Settles O9: the register column of a transaction's effect. -/
theorem onlyTheListedClassesWriteTheirDestination : Obligations.OnlyTheListedClassesWriteTheirDestination := by
  intro i s t h
  have effect := exec_next h
  refine ⟨by simpa [onlyRegister] using effect.onlyRegister_rd, fun silent => ?_⟩
  rcases effect.registers with ⟨writes, -⟩ | ⟨-, e⟩
  · rw [silent] at writes; cases writes
  · simpa using e

end Sys2Proof.Machine
end

section
/-!
Noninterference: the register file, which no transaction reads (R23), and the operand fields that a class does not read
(R29).
-/
namespace Sys2Proof.Machine

/-! ### Replacing the register file -/

/-- The same machine with another register file. -/
def State.withRegisters (s : State) (xs : Vector Word 32) : State := { s with x := xs }

@[simp] theorem State.withRegisters_csr (s : State) (xs : Vector Word 32) : (s.withRegisters xs).csr = s.csr := rfl
@[simp] theorem State.withRegisters_mem (s : State) (xs : Vector Word 32) : (s.withRegisters xs).mem = s.mem := rfl
@[simp] theorem State.withRegisters_devices (s : State) (xs : Vector Word 32) :
    (s.withRegisters xs).devices = s.devices := rfl
@[simp] theorem State.withRegisters_cfg (s : State) (xs : Vector Word 32) : (s.withRegisters xs).cfg = s.cfg := rfl

/-- A bus read answers the same and leaves the replaced register file where it is. -/
theorem memRead_withRegisters (w : Width) (a : Word) (s : State) (xs : Vector Word 32) :
    memRead w a (s.withRegisters xs) = (memRead w a s).map fun r => (r.1, r.2.withRegisters xs) := by
  unfold memRead
  rw [State.withRegisters_cfg]
  cases Config.target s.cfg .read w a with
  | none => rfl
  | some k => cases k <;> rfl

/-- A bus write does the same and leaves the replaced register file where it is. -/
theorem memWrite_withRegisters (w : Width) (a : Word) (v : BitVec w.bits) (s : State) (xs : Vector Word 32) :
    memWrite w a v (s.withRegisters xs) = (memWrite w a v s).map fun t => t.withRegisters xs := by
  unfold memWrite
  rw [State.withRegisters_cfg]
  cases Config.target s.cfg .write w a with
  | none => rfl
  | some k => cases k <;> rfl

/-- Phase 0 does the same and leaves the replaced register file where it is. -/
theorem diagProbe_withRegisters (i : Instr) (s : State) (xs : Vector Word 32) :
    diagProbe i (s.withRegisters xs) = (diagProbe i s).withRegisters xs := by
  unfold diagProbe
  rw [State.withRegisters_cfg]
  cases s.cfg.diagProbe with
  | none => rfl
  | some p =>
    simp only [memRead_withRegisters]
    cases memRead p.width (probeAddr p.addr i) s <;> rfl

/-- The outcome `o xs`, as the register file `xs` it starts from varies, is one and the same fault, or one and the same
state around `xs`, written at `rd` with one and the same value if the class writes a register. -/
inductive RegisterBlind (i : Instr) (o : Vector Word 32 → Host.Outcome State Fault Refusal) : Prop where
  | fault (f : Fault) (h : ∀ xs, o xs = .fault f)
  | writes (hw : writesRegister i = true) (t : State) (v : Word)
      (h : ∀ xs, o xs = .next ((t.withRegisters xs).writeReg i.fields.rd v))
  | keeps (hw : writesRegister i = false) (t : State) (h : ∀ xs, o xs = .next (t.withRegisters xs))

/-- A load is blind to the register file. -/
theorem load_registerBlind {i : Instr} {c : Fields} (hw : writesRegister i = true) (hc : i.fields = c) (w : Width)
    (f : BitVec w.bits → Word) (p : State) : RegisterBlind i fun xs => load w f c (p.withRegisters xs) := by
  subst hc
  cases hr : memRead w (accessAddr i.fields) p with
  | error e => exact .fault _ fun xs => by simp only [load, memRead_withRegisters, hr]; rfl
  | ok r => exact .writes hw r.2 (f r.1) fun xs => by simp only [load, memRead_withRegisters, hr]; rfl

/-- A store is blind to the register file. -/
theorem store_registerBlind {i : Instr} {c : Fields} (hw : writesRegister i = false) (hc : i.fields = c) (w : Width)
    (p : State) : RegisterBlind i fun xs => store w c (p.withRegisters xs) := by
  subst hc
  cases hr : memWrite w (accessAddr i.fields) (storeData w i.fields) p with
  | error e => exact .fault _ fun xs => by simp only [store, memWrite_withRegisters, hr]; rfl
  | ok t => exact .keeps hw t fun xs => by simp only [store, memWrite_withRegisters, hr]; rfl

/-- A CSR read-modify-write is blind to the register file: `rd` receives the snapshot of a CSR. -/
theorem csrReadModifyWrite_registerBlind {i : Instr} {c : Fields} (hw : writesRegister i = true) (hc : i.fields = c)
    (f : Word → Word → Word) (m : Word) (p : State) :
    RegisterBlind i fun xs => csrReadModifyWrite f m c (p.withRegisters xs) := by
  subst hc
  exact .writes hw (p.writeCsr i.fields.csr (f (p.readCsr i.fields.csr) m)) (p.readCsr i.fields.csr) fun _ => rfl

/-- What is blind to the register file stays so when phase 0 runs before it. -/
theorem RegisterBlind.after_diagProbe {i : Instr} {s : State} (o : State → Host.Outcome State Fault Refusal)
    (h : RegisterBlind i fun xs => o ((diagProbe i s).withRegisters xs)) :
    RegisterBlind i fun xs => o (diagProbe i (s.withRegisters xs)) := by
  simpa only [diagProbe_withRegisters] using h

/-- R23: a transaction is blind to the register file. -/
theorem exec_registerBlind (i : Instr) (s : State) : RegisterBlind i fun xs => exec i (s.withRegisters xs) := by
  cases i with
  | lb c | lbu c | lh c | lhu c | lw c => exact .after_diagProbe (load _ _ c) (load_registerBlind rfl rfl _ _ _)
  | sb c | sh c | sw c => exact .after_diagProbe (store _ c) (store_registerBlind rfl rfl _ _)
  | beq c | bne c | blt c | bge c | bltu c | bgeu c => exact .after_diagProbe branch (.keeps rfl _ fun _ => rfl)
  | csrrw c | csrrs c | csrrc c =>
    exact .after_diagProbe (csrReadModifyWrite _ (registerOperand c) c)
      (csrReadModifyWrite_registerBlind rfl rfl _ _ _)
  | csrrwi c | csrrsi c | csrrci c =>
    exact .after_diagProbe (csrReadModifyWrite _ (immediateOperand c) c)
      (csrReadModifyWrite_registerBlind rfl rfl _ _ _)
  | ecall c =>
    exact .after_diagProbe (fun p => .next (takeEnvironmentCall p))
      (.keeps rfl (takeEnvironmentCall (diagProbe (.ecall c) s)) fun _ => rfl)
  | mret c => exact .after_diagProbe (fun p => .next (returnFromTrap p)) (.keeps rfl _ fun _ => rfl)
  | fence c => exact .after_diagProbe .next (.keeps rfl _ fun _ => rfl)
  | other c => exact .after_diagProbe (fun p => .next (p.writeReg c.rd c.aluOut)) (.writes rfl _ _ fun _ => rfl)

/-- Settles O10: the outcomes from two register files are two values of one blind outcome. -/
theorem noTransactionReadsTheRegisterFile : Obligations.NoTransactionReadsTheRegisterFile := by
  intro i s xs
  have own : exec i s = exec i (s.withRegisters s.x) := rfl
  rw [own]
  change (∀ f, _ → exec i (s.withRegisters xs) = _) ∧ ∀ t, _ → ∃ u, exec i (s.withRegisters xs) = _ ∧ _
  cases exec_registerBlind i s with
  | fault f h => simp [h]
  | writes hw u v h =>
    refine ⟨fun f e => by simp [h] at e, fun t e => ⟨_, h xs, ?_⟩⟩
    obtain rfl : _ = t := by simpa [h] using e
    refine ⟨by simp, by simp, by simp, fun hrd _ => ?_⟩
    rw [State.readReg_writeReg_self _ hrd, State.readReg_writeReg_self _ hrd]
  | keeps hw u h =>
    refine ⟨fun f e => by simp [h] at e, fun t e => ⟨_, h xs, ?_⟩⟩
    obtain rfl : _ = t := by simpa [h] using e
    exact ⟨rfl, rfl, rfl, fun _ writes => by simp [hw] at writes⟩

/-! ### Operand fields that a class does not read -/

/-- A load reads `alu_out` and `rd` alone. -/
theorem load_congr_fields {w : Width} {f : BitVec w.bits → Word} {c d : Fields} {s : State} (ha : c.aluOut = d.aluOut)
    (hr : c.rd = d.rd) : load w f c s = load w f d s := by
  simp only [load, accessAddr, ha, hr]

/-- A store reads `alu_out` and `rs2_data` alone. -/
theorem store_congr_fields {w : Width} {c d : Fields} {s : State} (ha : c.aluOut = d.aluOut)
    (hd : c.rs2Data = d.rs2Data) : store w c s = store w d s := by
  simp only [store, accessAddr, storeData, ha, hd]

/-- A CSR class reads `csr`, its operand and `rd` alone. -/
theorem csrReadModifyWrite_congr_fields {f : Word → Word → Word} {m n : Word} {c d : Fields} {s : State}
    (hc : c.csr = d.csr) (hm : m = n) (hr : c.rd = d.rd) :
    csrReadModifyWrite f m c s = csrReadModifyWrite f n d s := by
  simp only [csrReadModifyWrite, hc, hm, hr]

/-- Without the probe two transactions agree if what follows phase 0 agrees. -/
theorem eq_of_no_probe {s : State} (hp : s.cfg.diagProbe = none) {i j : Instr}
    (o o' : State → Host.Outcome State Fault Refusal) (h : o s = o' s) : o (diagProbe i s) = o' (diagProbe j s) := by
  rw [diagProbe_none hp, diagProbe_none hp, h]

/-- Settles O37, by the rows of the table of R29. -/
theorem unreadFieldsChangeNothing : Obligations.UnreadFieldsChangeNothing := by
  intro i d s hp agree
  obtain ⟨hrd, hcsr, himm, hrs1, hrs2, halu⟩ := agree
  cases i with
  | lb c | lbu c | lh c | lhu c | lw c =>
    exact eq_of_no_probe hp (load _ _ c) (load _ _ d) (load_congr_fields (halu rfl) (hrd rfl))
  | sb c | sh c | sw c =>
    exact eq_of_no_probe hp (store _ c) (store _ d) (store_congr_fields (halu rfl) (hrs2 rfl))
  | beq c | bne c | blt c | bge c | bltu c | bgeu c => exact eq_of_no_probe hp branch branch rfl
  | csrrw c | csrrs c | csrrc c =>
    exact eq_of_no_probe hp (csrReadModifyWrite _ (registerOperand c) c) (csrReadModifyWrite _ (registerOperand d) d)
      (csrReadModifyWrite_congr_fields (hcsr rfl) (hrs1 rfl) (hrd rfl))
  | csrrwi c | csrrsi c | csrrci c =>
    exact eq_of_no_probe hp (csrReadModifyWrite _ (immediateOperand c) c) (csrReadModifyWrite _ (immediateOperand d) d)
      (csrReadModifyWrite_congr_fields (hcsr rfl) (himm rfl) (hrd rfl))
  | ecall c =>
    exact eq_of_no_probe hp (fun p => .next (takeEnvironmentCall p)) (fun p => .next (takeEnvironmentCall p)) rfl
  | mret c => exact eq_of_no_probe hp (fun p => .next (returnFromTrap p)) (fun p => .next (returnFromTrap p)) rfl
  | fence c => exact eq_of_no_probe hp .next .next rfl
  | other c =>
    exact eq_of_no_probe hp (fun p => .next (p.writeReg c.rd c.aluOut)) (fun p => .next (p.writeReg d.rd d.aluOut))
      (congrArg₂ (fun r v => Host.Outcome.next (s.writeReg r v)) (hrd rfl) (halu rfl))

end Sys2Proof.Machine
end

section
/-!
CSRs as plain storage (R25, R26), and the state after reset (R36, R220).
-/
namespace Sys2Proof.Machine

/-! ### The CSR bank -/

/-- R25: an unmapped CSR reads 0. -/
theorem State.readCsr_of_unmapped {s : State} {a : CsrAddr} (h : s.csrMapped a = false) : s.readCsr a = 0 := by
  have unlisted : CsrBank.lookup s.csr a = none := by simpa [State.csrMapped] using h
  simp [State.readCsr, unlisted]

/-- R26: a CSR reads exactly what was written. -/
@[simp] theorem State.readCsr_writeCsr_self (s : State) (a : CsrAddr) (v : Word) : (s.writeCsr a v).readCsr a = v := by
  simp [State.readCsr, CsrBank.lookup_insert_self]

/-- R24: a CSR is mapped once it is written. -/
@[simp] theorem State.csrMapped_writeCsr_self (s : State) (a : CsrAddr) (v : Word) :
    (s.writeCsr a v).csrMapped a = true := by
  simp [State.csrMapped, CsrBank.lookup_insert_self]

/-- R26: a CSR write changes no other CSR. -/
theorem State.onlyCsr_writeCsr (s : State) (a : CsrAddr) (v : Word) : onlyCsr a s (s.writeCsr a v) := by
  intro b hb
  simp [State.readCsr, State.csrMapped, CsrBank.lookup_insert_of_ne _ hb]

/-- Settles O11, from the laws of a CSR write. -/
theorem csrIsPlainStorage : Obligations.CsrIsPlainStorage := fun s a v =>
  ⟨State.readCsr_of_unmapped, s.readCsr_writeCsr_self a v, s.csrMapped_writeCsr_self a v, s.onlyCsr_writeCsr a v,
    rfl, rfl, rfl, rfl, rfl⟩

/-! ### The state after reset -/

section
variable (cfg : Config) (xregs : Vector Word 32) {m : Memory} (cmds : List CommandWord)

/-- A launch whose load image is in canonical form establishes the invariant, whatever `XREG_RESET` holds for
register 0. -/
theorem State.launch_inv (h : Memory.wf m) : (State.launch cfg xregs m cmds).Inv :=
  ⟨by simp [State.launch], List.Pairwise.nil, h⟩

/-- R36: after a launch every CSR is unmapped (D12). -/
@[simp] theorem State.launch_csrMapped (a : CsrAddr) : (State.launch cfg xregs m cmds).csrMapped a = false := rfl

/-- R36: after a launch every register but register 0 reads `XREG_RESET`. -/
theorem State.launch_readReg {j : RegIndex} (h : j ≠ 0) :
    (State.launch cfg xregs m cmds).readReg j = xregs[j.toNat]'(j.isLt) := by
  have above : 0 ≠ j.toNat := fun e => h (BitVec.eq_of_toNat_eq e.symm)
  rw [State.readReg_eq _ h]
  exact Vector.getElem_set_ne (by decide) _ above

end

/-- Every register reads 0 at `State.reset` (log 12). -/
theorem State.reset_readReg (j : RegIndex) : State.reset.readReg j = 0 := by
  by_cases h : j = 0
  · subst h; exact State.readReg_zero _
  · exact (State.launch_readReg _ _ _ h).trans (Vector.getElem_replicate j.isLt)

/-- Settles O39, from what a launch leaves and the fields of `State.reset`. -/
theorem resetValuesAndInvariant : Obligations.ResetValuesAndInvariant := by
  refine ⟨fun cfg xregs m cmds hm => ?_, ?_, State.reset_readReg, fun a => rfl, rfl, rfl, rfl, rfl, rfl, rfl⟩
  · have unmapped := State.launch_csrMapped (m := m) cfg xregs cmds
    exact ⟨State.launch_inv cfg xregs cmds hm, State.readReg_zero _,
      fun a => ⟨State.readCsr_of_unmapped (unmapped a), unmapped a⟩,
      fun j hj => State.launch_readReg cfg xregs cmds hj⟩
  · exact State.launch_inv _ _ _ ⟨List.Pairwise.nil, by simp⟩

end Sys2Proof.Machine
end

section
/-!
Memory (20_memory.md): the bus column of a transaction's effect, the byte order of wide values, and what a load or a fetch
finds after a store.
-/
namespace Sys2Proof.Machine

/-! ### The one bus access of a transaction -/

/-- The bus column of a transaction's effect: a class without an access shows the peripherals nothing; the access of a load
or store is answered by RAM, which leaves no trace, or by a peripheral, which sees that access alone (R57, R66). -/
theorem Effect.bus {i : Instr} {p t : State} (h : Effect i p t) :
    (accessForm i = none ∧ t.devices = p.devices) ∨
    ∃ dir w, accessForm i = some (dir, w) ∧
      ((Config.target p.cfg dir w i.fields.aluOut = some .ram ∧ t.devices = p.devices) ∨
       (Config.target p.cfg dir w i.fields.aluOut = some .device ∧
        ∃ v, t.devices = p.devices ++ [⟨dir, w, i.fields.aluOut, v⟩])) := by
  cases h with
  | loadRam w f sg hf ht => exact .inr ⟨.read, w, by simp [accessForm, hf], .inl ⟨ht, by simp⟩⟩
  | loadDevice w f sg hf ht => exact .inr ⟨.read, w, by simp [accessForm, hf], .inr ⟨ht, _, State.writeReg_devices ..⟩⟩
  | storeRam w hf ht => exact .inr ⟨.write, w, by simp [accessForm, hf], .inl ⟨ht, rfl⟩⟩
  | storeDevice w hf ht => exact .inr ⟨.write, w, by simp [accessForm, hf], .inr ⟨ht, _, rfl⟩⟩
  | csr v hf =>
    refine .inl ⟨?_, by simp⟩
    rcases hf with hf | hf <;> simp [accessForm, hf]
  | environmentCall hf => exact .inl ⟨by simp [accessForm, hf], rfl⟩
  | nothing hf =>
    refine .inl ⟨?_, rfl⟩
    rcases hf with hf | hf | hf <;> simp [accessForm, hf]
  | residual hf => exact .inl ⟨by simp [accessForm, hf], by simp⟩

/-- A transaction with an effect had its access admitted (R58). -/
theorem Effect.admitted {i : Instr} {p t : State} (h : Effect i p t) {dir : Dir} {w : Width}
    (access : accessForm i = some (dir, w)) : Config.target p.cfg dir w i.fields.aluOut ≠ none := by
  rcases h.bus with ⟨e, -⟩ | ⟨dir', w', e, answered⟩ <;> rw [access] at e <;> cases e
  rcases answered with ⟨ht, -⟩ | ⟨ht, -⟩ <;> simp [ht]

/-- Settles O20: a transaction has an effect, and then its access was admitted, or it ends in the fault of its own access,
admitted nowhere. -/
theorem accessCompletesExactlyWhereAdmitted : Obligations.AccessCompletesExactlyWhereAdmitted := by
  intro i s dir w access
  rcases exec_cases i s with ⟨dir', w', own, refused, e⟩ | ⟨t, e, effect⟩
  · rw [access] at own; cases own
    simp [e, refused]
  · exact iff_of_true ⟨t, e⟩ (by simpa using effect.admitted access)

/-- Settles O35: the bus column of a transaction's effect. -/
theorem peripheralsSeeAtMostOneAccessPerTransaction : Obligations.PeripheralsSeeAtMostOneAccessPerTransaction := by
  intro i s t h
  rcases (exec_next h).bus with ⟨-, e⟩ | ⟨dir, w, access, ⟨-, e⟩ | ⟨-, v, e⟩⟩
  · exact ⟨.inl e, fun _ => e⟩
  · exact ⟨.inl e, fun _ => e⟩
  · exact ⟨.inr ⟨dir, w, v, access, e⟩, fun silent => by simp [access] at silent⟩

/-! ### The byte order of wide values (R55) -/

section
variable {s : State} (a : Word)

/-- One byte has no order. -/
@[simp] theorem State.ramValue_b1 : s.ramValue .b1 a = s.byteAt a := by
  cases h : s.cfg.byteOrder <;> simp [State.ramValue, joinBytes, byteAddr, byteOffset, h]

/-- Little-endian: the byte at the lowest address is the least significant. -/
theorem State.ramValue_little_b2 (h : s.cfg.byteOrder = .little) :
    s.ramValue .b2 a = s.byteAt (a + 1) ++ s.byteAt a := by
  simp [State.ramValue, joinBytes, byteAddr, byteOffset, h]

theorem State.ramValue_little_b4 (h : s.cfg.byteOrder = .little) :
    s.ramValue .b4 a = s.byteAt (a + 3) ++ s.byteAt (a + 2) ++ s.byteAt (a + 1) ++ s.byteAt a := by
  simp [State.ramValue, joinBytes, byteAddr, byteOffset, h]

/-- Big-endian: the byte at the lowest address is the most significant. -/
theorem State.ramValue_big_b2 (h : s.cfg.byteOrder = .big) :
    s.ramValue .b2 a = s.byteAt a ++ s.byteAt (a + 1) := by
  simp [State.ramValue, joinBytes, byteAddr, byteOffset, h]

theorem State.ramValue_big_b4 (h : s.cfg.byteOrder = .big) :
    s.ramValue .b4 a = s.byteAt a ++ s.byteAt (a + 1) ++ s.byteAt (a + 2) ++ s.byteAt (a + 3) := by
  simp [State.ramValue, joinBytes, byteAddr, byteOffset, h]

/-- After a little-endian RAM write byte `k` of the value lies `k` above the address. -/
theorem State.byteAt_writeRam_little (h : s.cfg.byteOrder = .little) (hm : Memory.wf s.mem) {w : Width}
    (v : BitVec w.bits) {k : Nat} (hk : k < w.bytes) :
    (s.writeRam w a v).byteAt (a + BitVec.ofNat 32 k) = valueByte v k := by
  simpa only [byteAddr, byteOffset, h] using State.byteAt_writeRam_self hm w a v hk

end

/-- Two neighbouring bytes of a value are the half-word over them. -/
theorem valueByte_append_valueByte {n : Nat} (v : BitVec n) (k : Nat) :
    valueByte v (k + 1) ++ valueByte v k = v.extractLsb' (8 * k) 16 :=
  BitVec.extractLsb'_append_extractLsb'_eq_extractLsb' (by omega)

/-- Settles O22, from the bytes of a value in either order and the bytes of a little-endian write. -/
theorem byteOrderOfWideValues : Obligations.ByteOrderOfWideValues := by
  refine ⟨fun s a => ⟨State.ramValue_b1 a,
    fun h => ⟨State.ramValue_little_b2 a h, State.ramValue_little_b4 a h⟩,
    fun h => ⟨State.ramValue_big_b2 a h, State.ramValue_big_b4 a h⟩⟩, fun s a v hs h => ?_⟩
  obtain ⟨-, -, hm⟩ := hs
  have byte {k : Nat} (hk : k < 4) : (s.writeRam .b4 a v).byteAt (a + BitVec.ofNat 32 k) = valueByte v k :=
    State.byteAt_writeRam_little a h hm (w := .b4) v hk
  constructor
  · simpa [valueByte] using byte (k := 0) (by decide)
  · have next : a + 2 + 1 = a + 3 := BitVec.add_assoc a 2 1
    have half := State.ramValue_little_b2 (s := s.writeRam .b4 a v) (a + 2) h
    rw [next] at half
    calc (s.writeRam .b4 a v).ramValue .b2 (a + 2)
        = (s.writeRam .b4 a v).byteAt (a + 3) ++ (s.writeRam .b4 a v).byteAt (a + 2) := half
      _ = valueByte v 3 ++ valueByte v 2 := congrArg₂ _ (byte (by decide)) (byte (by decide))
      _ = v.extractLsb' 16 16 := valueByte_append_valueByte v 2

/-! ### What a load and a fetch find after a store -/

/-- A store that RAM answers completes with its RAM write. -/
theorem store_of_ram {w : Width} {c : Fields} {s : State} (h : Config.target s.cfg .write w c.aluOut = some .ram) :
    store w c s = .next (s.writeRam w c.aluOut (storeData w c)) := by
  rcases store_cases w c s with ⟨e, -⟩ | ⟨-, e⟩ | ⟨e, -⟩
  · simp [h] at e
  · exact e
  · simp [h] at e

/-- A load that RAM answers completes with the RAM value in `rd`. -/
theorem load_of_ram {w : Width} {f : BitVec w.bits → Word} {c : Fields} {s : State}
    (h : Config.target s.cfg .read w c.aluOut = some .ram) :
    load w f c s = .next (s.writeReg c.rd (f (s.ramValue w c.aluOut))) := by
  rcases load_cases w f c s with ⟨e, -⟩ | ⟨-, e⟩ | ⟨e, -⟩
  · simp [h] at e
  · exact e
  · simp [h] at e

section
variable {w : Width} {c : Fields} {s t : State} {i : Instr}

/-- After a store to RAM, phase 0 included, memory holds the stored value; the parameters are kept. -/
theorem ramValue_of_store (hs : s.Inv) (ram : Config.target s.cfg .write w c.aluOut = some .ram)
    (h : store w c (diagProbe i s) = .next t) : t.cfg = s.cfg ∧ t.ramValue w c.aluOut = storeData w c := by
  have ram' : Config.target (diagProbe i s).cfg .write w c.aluOut = some .ram := by simpa using ram
  obtain ⟨-, -, hm⟩ := diagProbe_inv i hs
  rw [store_of_ram ram'] at h
  cases h
  exact ⟨by simp, State.ramValue_writeRam hm w c.aluOut (storeData w c)⟩

/-- R59: a load after a store to the same RAM address, each with its phase 0, puts the widened stored value in `rd`. -/
theorem load_after_store (f : BitVec w.bits → Word) {d : Fields} (j : Instr) (hs : s.Inv) (ha : d.aluOut = c.aluOut)
    (hrd : d.rd ≠ 0) (writable : Config.target s.cfg .write w c.aluOut = some .ram)
    (readable : Config.target s.cfg .read w c.aluOut = some .ram) (h : store w c (diagProbe i s) = .next t) :
    ∃ u, load w f d (diagProbe j t) = .next u ∧ u.readReg d.rd = f (storeData w c) := by
  obtain ⟨hcfg, stored⟩ := ramValue_of_store hs writable h
  have readable' : Config.target (diagProbe j t).cfg .read w d.aluOut = some .ram := by simpa [hcfg, ha] using readable
  refine ⟨_, load_of_ram readable', ?_⟩
  rw [State.readReg_writeReg_self _ hrd, diagProbe_ramValue, ha, stored]

end

/-- The data of a store are the low bits of `rs2_data` (R130). -/
theorem storeData_eq_extractLsb' (w : Width) (c : Fields) : storeData w c = c.rs2Data.extractLsb' 0 w.bits :=
  BitVec.setWidth_eq_extractLsb' (by cases w <;> decide)

/-- A word's store data are the whole of `rs2_data`. -/
theorem storeData_b4 (c : Fields) : storeData .b4 c = c.rs2Data := BitVec.setWidth_eq c.rs2Data

/-- Settles O23: one load after one store, at each width. -/
theorem storeThenLoadReturnsTheStoredValue : Obligations.StoreThenLoadReturnsTheStoredValue := by
  intro c d s t hs ha hrd
  refine ⟨fun hw hr h => ?_, fun hw hr h => ?_, fun hw hr h => ?_⟩
  · have loaded := load_after_store zext32 (.lw d) hs ha hrd hw hr h
    rwa [storeData_b4, zext32, BitVec.setWidth_eq] at loaded
  · have loaded := load_after_store zext32 (.lhu d) hs ha hrd hw hr h
    rwa [storeData_eq_extractLsb'] at loaded
  · have loaded := load_after_store zext32 (.lbu d) hs ha hrd hw hr h
    rwa [storeData_eq_extractLsb'] at loaded

/-- FENCE, MRET and the branches complete, and all they do is phase 0 (R140, R171, R172). -/
theorem exec_eq_diagProbe {i : Instr} (s : State)
    (hi : family i = .memoryFence ∨ family i = .trapReturn ∨ family i = .branch) :
    exec i s = .next (diagProbe i s) := by
  cases i with
  | beq | bne | blt | bge | bltu | bgeu | mret | fence => rfl
  | lb | lbu | lh | lhu | lw | sb | sh | sw | csrrw | csrrwi | csrrs | csrrsi | csrrc | csrrci | ecall | other =>
    simp [family] at hi

/-- Settles O43: the fetch reads the RAM that SW wrote, and phase 0 leaves RAM alone. -/
theorem storedWordsAreSeenByLaterFetches : Obligations.StoredWordsAreSeenByLaterFetches := by
  intro c s t hs ram h
  obtain ⟨-, stored⟩ := ramValue_of_store hs ram h
  rw [storeData_b4] at stored
  exact ⟨stored, fun i hi => ⟨_, exec_eq_diagProbe t hi, (diagProbe_ramValue i t .b4 c.aluOut).trans stored⟩⟩

end Sys2Proof.Machine
end

section
/-!
The command word (30_encoding.md, R81, R82, R84): the pattern string and its slices are inverse to each other, and the class
table sends each code below 24 to the one class that has it.
-/
namespace Sys2Proof

/-! ### The pattern string of R81 and its slices -/

/-- The low field of a pattern string is its last part. -/
theorem extractLsb'_zero_append {m n : Nat} (hi : BitVec m) (lo : BitVec n) : (hi ++ lo).extractLsb' 0 n = lo := by
  rw [BitVec.extractLsb'_append_eq_of_add_le (Nat.le_of_eq (Nat.zero_add n)), BitVec.extractLsb'_eq_self]

/-- `op` is read where the encoder puts it. -/
@[simp] theorem opField_encodeFields (c : Fields) (op : BitVec 5) : opField (encodeFields c op) = op :=
  extractLsb'_zero_append _ op

/-- The operand fields are read where the encoder puts them: each slice skips the parts of the pattern string below its own.
(The widths are named because `simp` does not split 150 into two of them.) -/
@[simp] theorem commandFields_encodeFields (c : Fields) (op : BitVec 5) : commandFields (encodeFields c op) = c := by
  simp [commandFields, encodeFields, BitVec.extractLsb'_append_eq_of_le (w := 5),
    BitVec.extractLsb'_append_eq_of_le (w := 12), BitVec.extractLsb'_append_eq_of_le (w := 32),
    extractLsb'_zero_append (n := 5), extractLsb'_zero_append (n := 12), extractLsb'_zero_append (n := 32)]

/-- The slices of R81 leave no bit of the word out. -/
@[simp] theorem encodeFields_commandFields (w : CommandWord) : encodeFields (commandFields w) (opField w) = w := by
  have join {lo hi m n : Nat} (h : hi = lo + n) :
      w.extractLsb' hi m ++ w.extractLsb' lo n = w.extractLsb' lo (m + n) :=
    BitVec.extractLsb'_append_extractLsb'_eq_extractLsb' h
  simp only [commandFields, opField, encodeFields, join]
  exact BitVec.extractLsb'_eq_self

/-- A slice of a word as a number, in the quotient and remainder form of R81's bit ranges. -/
theorem toNat_extractLsb' {n : Nat} (w : BitVec n) (start len : Nat) :
    (w.extractLsb' start len).toNat = w.toNat / 2 ^ start % 2 ^ len := by
  rw [BitVec.extractLsb'_toNat, Nat.shiftRight_eq_div_pow]

/-! ### The class table of R82 -/

/-- The class table reads back the code of every class. -/
theorem decodeClass_opCode (i : Instr) : decodeClass (opCode i) i.fields = .ok i :=
  open Laws.ClassCode in
  i.casesOn (motive := Statement) lb lbu lh lhu lw sb sh sw beq bne blt bge bltu bgeu csrrw csrrwi csrrs csrrsi csrrc
    csrrci ecall mret fence other

/-- Everything the class table can answer: the reject of a reserved code (R84), or a command that has the code and the
fields. -/
theorem decodeClass_cases (op : BitVec 5) (c : Fields) :
    (24 ≤ op.toNat ∧ decodeClass op c = .error (.reservedOp op)) ∨
    (op.toNat < 24 ∧ ∃ i, decodeClass op c = .ok i ∧ opCode i = op ∧ i.fields = c) := by
  unfold decodeClass
  split
  case h_25 =>
    have reserved : 24 ≤ op.toNat := by
      simp only [imp_false] at *
      omega
    exact .inl ⟨reserved, rfl⟩
  all_goals exact .inr ⟨by omega, _, rfl, BitVec.eq_of_toNat_eq (Eq.symm ‹_›), rfl⟩

/-- Everything the decoder can answer. -/
theorem decode_cases (w : CommandWord) :
    (24 ≤ (opField w).toNat ∧ decode w = .error (.reservedOp (opField w))) ∨
    ((opField w).toNat < 24 ∧ ∃ i, decode w = .ok i ∧ opCode i = opField w ∧ i.fields = commandFields w) :=
  decodeClass_cases (opField w) (commandFields w)

/-- A decoded command has the word's code and the word's operand fields. -/
theorem opCode_fields_of_decode {w : CommandWord} {i : Instr} (h : decode w = .ok i) :
    opCode i = opField w ∧ i.fields = commandFields w := by
  rcases decode_cases w with ⟨-, e⟩ | ⟨-, j, e, same⟩ <;> rw [e] at h <;> cases h
  exact same

/-! ### The obligations about the decoder and the encoder -/

/-- Settles O1: the slices read back the code and the fields, and the class table the class. -/
theorem encodeThenDecodeGivesTheCommandBack : Obligations.EncodeThenDecodeGivesTheCommandBack := by
  intro i
  calc decode (encode i)
      = decodeClass (opCode i) i.fields := by
        rw [decode, encode, opField_encodeFields, commandFields_encodeFields]
    _ = .ok i := decodeClass_opCode i

/-- Settles O2: a decoded command's code and fields are the word's slices, which make up the whole word. -/
theorem decodeThenEncodeGivesTheWordBack : Obligations.DecodeThenEncodeGivesTheWordBack := by
  intro w i h
  obtain ⟨hop, hfields⟩ := opCode_fields_of_decode h
  rw [encode, hop, hfields, encodeFields_commandFields]

/-- Settles O3: a decoded command's code and fields are the word's slices, each a quotient and remainder of the word. -/
theorem decodedFieldsStandAtTheirBits : Obligations.DecodedFieldsStandAtTheirBits := by
  intro w i h
  obtain ⟨hop, hfields⟩ := opCode_fields_of_decode h
  have op : (opField w).toNat = w.toNat % 2 ^ 5 := by
    rw [opField, toNat_extractLsb', Nat.pow_zero, Nat.div_one]
  have aluOut : (commandFields w).aluOut.toNat = w.toNat / 2 ^ 118 :=
    (toNat_extractLsb' w 118 32).trans (Nat.mod_eq_of_lt (by omega))
  rw [hop, hfields]
  exact ⟨op, toNat_extractLsb' w 5 5, toNat_extractLsb' w 10 12, toNat_extractLsb' w 22 32, toNat_extractLsb' w 54 32,
    toNat_extractLsb' w 86 32, aluOut⟩

end Sys2Proof

namespace Sys2Proof.Machine

/-- A step refuses the next word if its code is reserved (R84). -/
theorem step_of_reserved {s : State} {w : CommandWord} {rest : List CommandWord} {code : BitVec 5}
    (next : s.commands = w :: rest) (h : decode w = .error (.reservedOp code)) :
    step s = .refused (.reservedOp code) := by
  simp only [step, nextCommand, next, h]

/-- Settles O4, by the two answers of the decoder. -/
theorem reservedCodesAndOnlyTheyAreRefused : Obligations.ReservedCodesAndOnlyTheyAreRefused := by
  intro w
  rcases decode_cases w with ⟨reserved, e⟩ | ⟨defined, i, e, -⟩
  · exact ⟨fun _ => ⟨e, fun s => step_of_reserved (s.handOver_commands w) e⟩, fun h => absurd h (by omega)⟩
  · exact ⟨fun h => absurd h (by omega), fun _ => ⟨i, e⟩⟩

end Sys2Proof.Machine
end

section
/-!
The upstream's instruction words (30_encoding.md, R88, R89): words that fit two rows of the table fit rows of one class.
-/
namespace Sys2Proof.Machine

/-- Replacing the operand fields keeps the class's code and puts in the new fields. -/
theorem fields_opCode_withFields (i : Instr) (d : Fields) :
    (i.withFields d).fields = d ∧ opCode (i.withFields d) = opCode i :=
  open Laws.FieldsReplaced in
  i.casesOn (motive := Statement) lb lbu lh lhu lw sb sh sw beq bne blt bge bltu bgeu csrrw csrrwi csrrs csrrsi csrrc
    csrrci ecall mret fence other d

/-- Two rows whose patterns agree on the bits that both masks keep are rows of one class. -/
theorem opCode_eq_of_patterns_agree :
    ∀ r ∈ wordRows, ∀ q ∈ wordRows, r.pattern &&& q.mask = q.pattern &&& r.mask → opCode r.cls = opCode q.cls := by
  decide

/-- A word that fits two rows shows that their patterns agree on the bits that both masks keep. -/
theorem patterns_agree_of_fits {r q : WordRow} {word : BitVec 32} (hr : r.fits word = true) (hq : q.fits word = true) :
    r.pattern &&& q.mask = q.pattern &&& r.mask := by
  have keepR : word &&& r.mask = r.pattern := beq_iff_eq.mp hr
  have keepQ : word &&& q.mask = q.pattern := beq_iff_eq.mp hq
  rw [← keepR, ← keepQ, BitVec.and_assoc, BitVec.and_assoc, BitVec.and_comm r.mask]

/-- Settles O44: some row is found, and its class is that of every row the word fits. -/
theorem everyInstructionWordHasTheClassOfItsRow : Obligations.EveryInstructionWordHasTheClassOfItsRow := by
  intro r word result s hr fits
  have someRow : (wordRows.find? fun q => q.fits word).isSome := List.find?_isSome.mpr ⟨r, hr, fits⟩
  obtain ⟨q, found⟩ := Option.isSome_iff_exists.mp someRow
  have sameClass : opCode q.cls = opCode r.cls :=
    opCode_eq_of_patterns_agree q (List.mem_of_find?_eq_some found) r hr
      (patterns_agree_of_fits (List.find?_some (p := fun p : WordRow => p.fits word) found) fits)
  obtain ⟨hfields, hcode⟩ := fields_opCode_withFields q.cls (upstreamFields word result s)
  exact ⟨_, by rw [upstreamCommand, found, Option.map_some], hcode.trans sameClass, hfields⟩

end Sys2Proof.Machine
end

section
/-!
The dispatch (40_dispatch.md): phase 0 (R101), the master pseudocode and the class rules (R100), what a fault leaves (R108),
the table of R104, and a run over the driver's commands (R109).
-/
namespace Sys2Proof.Machine

/-! ### Phase 0 -/

/-- Phase 0 maps no CSR. -/
@[simp] theorem diagProbe_csrMapped (i : Instr) (s : State) (a : CsrAddr) :
    (diagProbe i s).csrMapped a = s.csrMapped a := by
  simp only [State.csrMapped, diagProbe_csr]

/-- With the probe on, phase 0 shows one read to the peripheral that answers it and otherwise does nothing (R101). -/
theorem diagProbe_some {s : State} {p : Probe} (i : Instr) (on : s.cfg.diagProbe = some p) :
    (Config.target s.cfg .read p.width (probeAddr p.addr i) ≠ some .device ∧ diagProbe i s = s) ∨
    (Config.target s.cfg .read p.width (probeAddr p.addr i) = some .device ∧
      ∃ v, diagProbe i s = s.seen ⟨.read, p.width, probeAddr p.addr i, v⟩) := by
  rcases memRead_cases p.width (probeAddr p.addr i) s with ⟨ht, e⟩ | ⟨ht, e⟩ | ⟨ht, e⟩
  · exact .inl ⟨by simp [ht], by simp only [diagProbe, on, e]⟩
  · exact .inl ⟨by simp [ht], by simp only [diagProbe, on, e]⟩
  · exact .inr ⟨ht, _, by simp only [diagProbe, on, e]; rfl⟩

/-- Settles O36, by what answers the probe's read. -/
theorem probeIsOneDiscardedRead : Obligations.ProbeIsOneDiscardedRead := by
  refine fun i s => ⟨diagProbe_none, fun p on => ?_⟩
  rcases diagProbe_some i on with ⟨unseen, e⟩ | ⟨seen, v, e⟩
  · exact ⟨fun _ => e, fun seen => absurd seen unseen⟩
  · exact ⟨fun unseen => absurd seen unseen, fun _ => ⟨v, e⟩⟩

/-! ### The master pseudocode -/

/-- A load is phase 3 of its class. -/
theorem load_eq_loadPhase (w : Width) (f : BitVec w.bits → Word) (c : Fields) (p : State) :
    load w f c p = outcomeOf (loadPhase w f c p) := by
  unfold load loadPhase accessAddr
  cases memRead w c.aluOut p <;> rfl

/-- A store is phase 3 of its class. -/
theorem store_eq_storePhase (w : Width) (c : Fields) (p : State) :
    store w c p = outcomeOf (storePhase w c p) := by
  unfold store storePhase accessAddr storeData
  cases memWrite w c.aluOut (c.rs2Data.setWidth w.bits) p <;> rfl

/-- Zero extension of 32 bits is the identity (R12, conflict C9). -/
theorem zext32_word : (zext32 : Word → Word) = id := funext BitVec.setWidth_eq

/-- Settles O33: loads and stores are their phase 3, LW's extension is the identity, and the other classes' rules are the
phases themselves. -/
theorem classRulesRefineTheMasterPseudocode : Obligations.ClassRulesRefineTheMasterPseudocode := by
  intro i s
  cases i with
  | lb c | lbu c | lh c | lhu c => exact load_eq_loadPhase _ _ c _
  | lw c =>
    calc exec (.lw c) s
        = outcomeOf (loadPhase .b4 zext32 c (diagProbe (.lw c) s)) := load_eq_loadPhase .b4 zext32 c _
      _ = outcomeOf (loadPhase .b4 id c (diagProbe (.lw c) s)) :=
        congrArg (fun f : Word → Word => outcomeOf (loadPhase .b4 f c (diagProbe (.lw c) s))) zext32_word
  | sb c | sh c | sw c => exact store_eq_storePhase _ c _
  | beq | bne | blt | bge | bltu | bgeu | csrrw | csrrwi | csrrs | csrrsi | csrrc | csrrci | ecall | mret | fence
  | other => rfl

/-! ### What a fault leaves -/

/-- Phase 3 of a load succeeds or leaves the state (R108). -/
theorem loadPhase_ok_or_unchanged (w : Width) (f : BitVec w.bits → Word) (c : Fields) (p : State) :
    (loadPhase w f c p).2 = .ok ∨ (loadPhase w f c p).1 = p := by
  unfold loadPhase
  cases memRead w c.aluOut p with
  | ok r => exact .inl rfl
  | error e => exact .inr rfl

/-- Phase 3 of a store succeeds or leaves the state (R108). -/
theorem storePhase_ok_or_unchanged (w : Width) (c : Fields) (p : State) :
    (storePhase w c p).2 = .ok ∨ (storePhase w c p).1 = p := by
  unfold storePhase
  cases memWrite w c.aluOut (c.rs2Data.setWidth w.bits) p with
  | ok t => exact .inl rfl
  | error e => exact .inr rfl

/-- A transaction succeeds or leaves the state that phase 0 made: the classes that can fault do nothing in phase 2. -/
theorem writeback_ok_or_diagProbe (i : Instr) (s : State) :
    (writeback i s).2 = .ok ∨ (writeback i s).1 = diagProbe i s := by
  cases i with
  | lb c | lbu c | lh c | lhu c | lw c => exact loadPhase_ok_or_unchanged _ _ c _
  | sb c | sh c | sw c => exact storePhase_ok_or_unchanged _ c _
  | beq | bne | blt | bge | bltu | bgeu | csrrw | csrrwi | csrrs | csrrsi | csrrc | csrrci | ecall | mret | fence
  | other => exact .inl rfl

/-- Settles O31: what a faulting transaction leaves is the state after phase 0. -/
theorem faultCommitsNothing : Obligations.FaultCommitsNothing := by
  intro i s t dir w a h
  have left := writeback_ok_or_diagProbe i s
  rw [h] at left
  obtain rfl : t = diagProbe i s := left.resolve_left (by simp)
  exact ⟨by simp, by simp, by simp, by simp [sameMachine], rfl, diagProbe_none⟩

/-! ### The table of R104 -/

/-- A transaction keeps the parameters and the driver's commands. -/
theorem Effect.sameMachine {i : Instr} {p t : State} (h : Effect i p t) : Machine.sameMachine p t := by
  cases h with
  | loadRam | loadDevice | storeRam | storeDevice | csr | environmentCall | nothing | residual =>
    simp [Machine.sameMachine, takeEnvironmentCall]

/-- The CSR column: no CSR but the one listed, and none for a class that lists none. -/
theorem Effect.onlyCsr_csrWritten {i : Instr} {p t : State} (h : Effect i p t) :
    (csrWritten i p.cfg = none → t.csr = p.csr) ∧ ∀ a, csrWritten i p.cfg = some a → onlyCsr a p t := by
  rcases h.csrBank with ⟨a, v, listed, e⟩ | ⟨unlisted, e⟩
  · refine ⟨fun unlisted => by simp [listed] at unlisted, fun a' listed' b hb => ?_⟩
    obtain rfl : a = a' := by simpa [listed] using listed'
    simp [State.readCsr, State.csrMapped, e, CsrBank.lookup_insert_of_ne _ hb]
  · exact ⟨fun _ => e, fun a listed => by simp [unlisted] at listed⟩

/-- Memory in the bus column: as before but for a store, which keeps every byte outside its access. -/
theorem Effect.memory_frame {i : Instr} {p t : State} (h : Effect i p t) :
    ((∀ w, family i ≠ .store w) → t.mem = p.mem) ∧
    ∀ w, family i = .store w → p.Inv → ∀ b, ¬ inAccess w i.fields.aluOut b → t.byteAt b = p.byteAt b := by
  rcases h.memory with e | ⟨w, store, e⟩
  · exact ⟨fun _ => e, fun _ _ _ b _ => State.byteAt_congr e b⟩
  · refine ⟨fun noStore => absurd store (noStore w), fun w' store' hp b outside => ?_⟩
    obtain rfl : w = w' := by simpa [store] using store'
    obtain ⟨-, -, hm⟩ := hp
    exact (State.byteAt_congr e b).trans (State.byteAt_writeRam_of_not_inAccess hm w _ _ outside)

/-- Settles O34, column by column; phase 0, which comes before the effect, changes what peripherals have seen alone. -/
theorem eachClassChangesOnlyWhatItsRowLists : Obligations.EachClassChangesOnlyWhatItsRowLists := by
  refine fun i s => ⟨fun t h => ?_, fun f h => ?_⟩
  · have effect := exec_next h
    obtain ⟨onlyRd, noRegister⟩ := onlyTheListedClassesWriteTheirDestination i s t h
    obtain ⟨noCsr, onlyListed⟩ := effect.onlyCsr_csrWritten
    obtain ⟨memory, outside⟩ := effect.memory_frame
    obtain ⟨seen, unseen⟩ := peripheralsSeeAtMostOneAccessPerTransaction i s t h
    refine ⟨onlyRd, noRegister, by simpa using noCsr, by simpa [onlyCsr] using onlyListed, by simpa using memory,
      fun w store hs => by simpa using outside w store (diagProbe_inv i hs), unseen, fun dir w access => ?_,
      by simpa [sameMachine] using effect.sameMachine⟩
    refine seen.imp_right ?_
    rintro ⟨dir', w', v, own, e⟩
    obtain ⟨rfl, rfl⟩ : dir = dir' ∧ w = w' := by simpa [access] using own
    exact ⟨v, e⟩
  · rcases exec_cases i s with ⟨dir, w, access, -, -⟩ | ⟨t, e, -⟩
    · exact ⟨dir, w, access⟩
    · simp [e] at h

/-! ### Replacing memory -/

/-- The same machine with another memory. -/
def State.withMemory (s : State) (m : Memory) : State := { s with mem := m }

@[simp] theorem State.withMemory_cfg (s : State) (m : Memory) : (s.withMemory m).cfg = s.cfg := rfl

/-- A register write leaves the replaced memory where it is. -/
@[simp] theorem State.writeReg_withMemory (s : State) (m : Memory) (i : RegIndex) (v : Word) :
    (s.withMemory m).writeReg i v = (s.writeReg i v).withMemory m := by
  unfold State.writeReg
  split <;> rfl

/-- Phase 0 does the same, since its value is discarded, and leaves the replaced memory where it is. -/
theorem diagProbe_withMemory (i : Instr) (s : State) (m : Memory) :
    diagProbe i (s.withMemory m) = (diagProbe i s).withMemory m := by
  unfold diagProbe memRead
  rw [State.withMemory_cfg]
  cases s.cfg.diagProbe with
  | none => rfl
  | some p =>
    simp only
    cases Config.target s.cfg .read p.width (probeAddr p.addr i) with
    | none => rfl
    | some k => cases k <;> rfl

/-- The outcome `o` completes from every state, and from the same state with another memory it ends in the same state
with that memory. -/
def MemoryBlind (o : State → Host.Outcome State Fault Refusal) : Prop :=
  ∀ p m, ∃ u, o p = .next u ∧ o (p.withMemory m) = .next (u.withMemory m)

/-- What is blind to memory stays so when phase 0 runs before it. -/
theorem MemoryBlind.after_diagProbe {o : State → Host.Outcome State Fault Refusal} (h : MemoryBlind o) (i : Instr) :
    MemoryBlind fun s => o (diagProbe i s) := by
  intro s m
  simpa only [diagProbe_withMemory] using h (diagProbe i s) m

/-- Doing nothing is blind to memory. -/
theorem next_memoryBlind : MemoryBlind .next := fun p _ => ⟨p, rfl, rfl⟩

/-- A register write is blind to memory. -/
theorem writeReg_memoryBlind (i : RegIndex) (v : Word) : MemoryBlind fun p => .next (p.writeReg i v) :=
  fun p m => ⟨p.writeReg i v, rfl, congrArg _ (p.writeReg_withMemory m i v)⟩

/-- A CSR read-modify-write is blind to memory. -/
theorem csrReadModifyWrite_memoryBlind (f : Word → Word → Word) (operand : Word) (c : Fields) :
    MemoryBlind (csrReadModifyWrite f operand c) :=
  fun p m => ⟨_, rfl, congrArg _ ((p.writeCsr c.csr (f (p.readCsr c.csr) operand)).writeReg_withMemory m c.rd _)⟩

/-- A class without a bus access is blind to memory (R57). -/
theorem exec_memoryBlind {i : Instr} (silent : accessForm i = none) : MemoryBlind (exec i) := by
  cases i with
  | lb | lbu | lh | lhu | lw | sb | sh | sw => cases silent
  | beq c | bne c | blt c | bge c | bltu c | bgeu c | mret c | fence c => exact next_memoryBlind.after_diagProbe _
  | csrrw c | csrrwi c | csrrs c | csrrsi c | csrrc c | csrrci c =>
    exact (csrReadModifyWrite_memoryBlind _ _ c).after_diagProbe _
  | ecall c =>
    have entry : MemoryBlind fun p => .next (takeEnvironmentCall p) := fun p _ => ⟨takeEnvironmentCall p, rfl, rfl⟩
    exact entry.after_diagProbe _
  | other c => exact (writeReg_memoryBlind c.rd c.aluOut).after_diagProbe _

/-- Settles O38: the outcomes from two memories are two values of one blind outcome. -/
theorem classesWithoutAccessIgnoreMemory : Obligations.ClassesWithoutAccessIgnoreMemory := by
  intro i s t m silent h
  obtain ⟨u, own, other⟩ := exec_memoryBlind silent s m
  obtain rfl : u = t := by simpa [own] using h
  exact other

/-! ### A run over the driver's commands -/

/-- What the driver makes of a transaction keeps the parameters and its commands, whatever `ON_FAULT` says. -/
theorem driverTakes_sameMachine {i : Instr} {s t : State} (h : driverTakes i s (exec i s) = .next t) :
    sameMachine s t := by
  rcases driverTakes_cases i s with ⟨u, -, e, hu⟩ | ⟨f, -, ⟨-, e⟩ | ⟨-, e⟩⟩ <;> rw [e] at h <;> cases h
  · simpa [sameMachine] using hu.sameMachine
  · simp [sameMachine]

/-- A step that answers next has taken one command and kept the parameters (R109, log 3). -/
theorem step_takes_one_command {s t : State} (h : step s = .next t) :
    t.cfg = s.cfg ∧ ∃ w, s.commands = w :: t.commands := by
  rcases step_cases s with ⟨-, e⟩ | ⟨w, rest, next, ⟨code, -, e⟩ | ⟨i, -, e⟩⟩ <;> rw [e] at h
  · cases h
  · cases h
  · obtain ⟨hcfg, hcommands⟩ := driverTakes_sameMachine h
    exact ⟨hcfg, w, by rw [hcommands, next]⟩

/-- A run of `n + 1` steps that does not stop is one step and a run of `n` steps. -/
theorem run_succ_next {M : Host.Core} {n : Nat} {s t : M.State} (h : M.run (n + 1) s = .next t) :
    ∃ u, M.step s = .next u ∧ M.run n u = .next t := by
  rw [Host.Core.run] at h
  split at h
  case h_1 u one => exact ⟨u, one, h⟩
  case h_2 => cases h
  case h_3 => cases h

/-- Settles O41, by induction on the number of steps. -/
theorem runTakesEachCommandOnceInOrder : Obligations.RunTakesEachCommandOnceInOrder := by
  intro n
  induction n with
  | zero =>
    intro s t h
    cases h
    exact ⟨Nat.zero_le _, rfl, rfl⟩
  | succ n ih =>
    intro s t h
    obtain ⟨u, one, rest⟩ := run_succ_next (M := core) h
    obtain ⟨hcfg, w, hcommands⟩ := step_takes_one_command one
    obtain ⟨enough, dropped, kept⟩ := ih u t rest
    rw [hcommands]
    exact ⟨Nat.succ_le_succ enough, dropped, kept.trans hcfg⟩

end Sys2Proof.Machine
end

section
/-!
The loads (41_loads.md): their pseudocode (R121 to R125), and from it what they do by what answers behind their address
(20_memory.md, R55 to R58).
-/
namespace Sys2Proof.Machine

/-! ### The bus read and the register write of a load -/

/-- A successful bus read changes nothing but what peripherals have seen (R57). -/
theorem memRead_frame {w : Width} {a : Word} {s s' : State} {v : BitVec w.bits} (h : memRead w a s = .ok (v, s')) :
    s'.x = s.x ∧ s'.csr = s.csr ∧ s'.mem = s.mem ∧ sameMachine s s' := by
  rcases memRead_ok h with rfl | ⟨e, rfl⟩ <;> simp [sameMachine]

section
variable {w : Width} {a : Word} {s : State}

theorem memRead_of_refused (h : Config.target s.cfg .read w a = none) : memRead w a s = .error busError := by
  simp only [memRead, h]

theorem memRead_of_ram (h : Config.target s.cfg .read w a = some .ram) : memRead w a s = .ok (s.ramValue w a, s) := by
  simp only [memRead, h]

theorem memRead_of_device (h : Config.target s.cfg .read w a = some .device) :
    memRead w a s = .ok (s.deviceValue w a, s.seen ⟨.read, w, a, (s.deviceValue w a).setWidth 32⟩) := by
  simp only [memRead, h]

end

/-- A register write to a state with the register file of `s` changes no other register, and none at all for register 0
(R107). -/
theorem State.onlyRegister_writeReg {s t : State} (h : t.x = s.x) (i : RegIndex) (v : Word) :
    onlyRegister i s (t.writeReg i v) := by
  refine ⟨fun j hj => ?_, fun hi => ?_⟩
  · rw [State.readReg_writeReg_of_ne t hj, State.readReg_congr h]
  · rw [hi]; exact (congrArg State.x (State.writeReg_zero t v)).trans h

/-- A load whose bus read succeeds ends in its register write (R107). -/
theorem load_of_memRead_ok {w : Width} {f : BitVec w.bits → Word} {c : Fields} {s s' : State} {v : BitVec w.bits}
    (h : memRead w c.aluOut s = .ok (v, s')) : load w f c s = .next (s'.writeReg c.rd (f v)) := by
  simp only [load, accessAddr, h]

/-- A load whose bus read fails is the fault (R190). -/
theorem load_of_memRead_error {w : Width} {f : BitVec w.bits → Word} {c : Fields} {s : State} {e : BusError}
    (h : memRead w c.aluOut s = .error e) : load w f c s = .fault (.writebackMem .read w c.aluOut) := by
  simp only [load, accessAddr, h, raiseMemFault]

/-! ### The obligations about the loads -/

section
variable {mk : Fields → Instr} {code : BitVec 5} {w : Width} {widen : BitVec w.bits → Word}

/-- A class that runs `load` after phase 0 follows the pseudocode of a load. -/
theorem loadPseudocode_of_exec_eq_load (hcode : ∀ c, opCode (mk c) = code)
    (hexec : ∀ c s, exec (mk c) s = load w widen c (diagProbe (mk c) s)) : loadPseudocode mk code w widen := by
  refine fun c s => ⟨hcode c, fun v s' read => ?_, fun e refused => ?_⟩
  · obtain ⟨hx, hcsr, hmem, same⟩ := memRead_frame read
    exact ⟨s'.writeReg c.rd (widen v), (hexec c s).trans (load_of_memRead_ok read),
      fun hrd => State.readReg_writeReg_self s' hrd (widen v), State.onlyRegister_writeReg (by simpa using hx) c.rd _,
      by simpa using hcsr, by simpa using hmem, by simpa [sameMachine] using same, by simp⟩
  · exact (hexec c s).trans (load_of_memRead_error refused)

/-- A class that follows the pseudocode of a load does what the target of its read says: phase 0, which comes before the
read, changes neither the map nor RAM. -/
theorem loadRule_of_loadPseudocode {signed : Bool} (h : loadPseudocode mk code w widen)
    (hwiden : ∀ v, widen v = loadExtend signed v) : loadRule mk w signed := by
  intro c s
  obtain ⟨-, completes, faults⟩ := h c s
  simp only [hwiden] at completes
  refine ⟨fun refused => ?_, fun ram => ?_, fun device => ?_⟩
  · exact faults _ (memRead_of_refused (by simpa using refused))
  · simpa using completes _ _ (memRead_of_ram (by simpa using ram))
  · simpa using completes _ _ (memRead_of_device (by simpa using device))

end

/-- Settles O16: each load class runs `load` after phase 0, LW with an extension that is the identity. -/
theorem loadClassesFollowTheirPseudocode : Obligations.LoadClassesFollowTheirPseudocode := by
  have lw (c : Fields) (s : State) : exec (.lw c) s = load .b4 id c (diagProbe (.lw c) s) :=
    congrArg (fun f : Word → Word => load .b4 f c (diagProbe (.lw c) s)) zext32_word
  exact ⟨loadPseudocode_of_exec_eq_load (fun _ => rfl) fun _ _ => rfl,
    loadPseudocode_of_exec_eq_load (fun _ => rfl) fun _ _ => rfl,
    loadPseudocode_of_exec_eq_load (fun _ => rfl) fun _ _ => rfl,
    loadPseudocode_of_exec_eq_load (fun _ => rfl) fun _ _ => rfl,
    loadPseudocode_of_exec_eq_load (fun _ => rfl) lw⟩

/-- Settles O18: each load class follows its pseudocode, whose bus read does what its target says. -/
theorem loadsFromRamAndPeripherals : Obligations.LoadsFromRamAndPeripherals := by
  obtain ⟨lb, lbu, lh, lhu, lw⟩ := loadClassesFollowTheirPseudocode
  exact ⟨loadRule_of_loadPseudocode lb fun _ => rfl, loadRule_of_loadPseudocode lbu fun _ => rfl,
    loadRule_of_loadPseudocode lh fun _ => rfl, loadRule_of_loadPseudocode lhu fun _ => rfl,
    loadRule_of_loadPseudocode lw fun v => (BitVec.setWidth_eq v).symm⟩

end Sys2Proof.Machine
end

section
/-!
The stores (42_stores.md): their pseudocode (R131 to R133), and from it what they do by what answers behind their address
(20_memory.md, R55 to R58).
-/
namespace Sys2Proof.Machine

/-! ### The bus write of a store -/

section
variable {w : Width} {a : Word} {v : BitVec w.bits} {s : State}

theorem memWrite_of_refused (h : Config.target s.cfg .write w a = none) : memWrite w a v s = .error busError := by
  simp only [memWrite, h]

theorem memWrite_of_ram (h : Config.target s.cfg .write w a = some .ram) :
    memWrite w a v s = .ok (s.writeRam w a v) := by
  simp only [memWrite, h]

theorem memWrite_of_device (h : Config.target s.cfg .write w a = some .device) :
    memWrite w a v s = .ok (s.seen ⟨.write, w, a, v.setWidth 32⟩) := by
  simp only [memWrite, h]

/-- A successful bus write changes nothing but memory and what peripherals have seen (R57). -/
theorem memWrite_frame {s' : State} (h : memWrite w a v s = .ok s') :
    s'.x = s.x ∧ s'.csr = s.csr ∧ sameMachine s s' := by
  rcases memWrite_cases w a v s with ⟨-, e⟩ | ⟨-, e⟩ | ⟨-, e⟩ <;> rw [e] at h <;> cases h
  · exact ⟨rfl, rfl, rfl, rfl⟩
  · exact ⟨rfl, rfl, rfl, rfl⟩

end

/-- Byte `k` of the data of a store is byte `k` of `rs2_data` (R130). -/
theorem valueByte_storeData {w : Width} (c : Fields) {k : Nat} (hk : k < w.bytes) :
    valueByte (storeData w c) k = c.rs2Data.extractLsb' (8 * k) 8 := by
  have inside : 8 * k + 8 ≤ w.bits := by cases w <;> simp only [Width.bytes, Width.bits] at hk ⊢ <;> omega
  exact BitVec.extractLsb'_setWidth_of_le inside

/-- A store whose bus write succeeds ends with it. -/
theorem store_of_memWrite_ok {w : Width} {c : Fields} {s s' : State}
    (h : memWrite w c.aluOut (storeData w c) s = .ok s') : store w c s = .next s' := by
  simp only [store, accessAddr, h]

/-- A store whose bus write fails is the fault (R190). -/
theorem store_of_memWrite_error {w : Width} {c : Fields} {s : State} {e : BusError}
    (h : memWrite w c.aluOut (storeData w c) s = .error e) :
    store w c s = .fault (.writebackMem .write w c.aluOut) := by
  simp only [store, accessAddr, h, raiseMemFault]

/-! ### The obligations about the stores -/

section
variable {mk : Fields → Instr} {code : BitVec 5} {w : Width}

/-- A class that runs `store` after phase 0 follows the pseudocode of a store. -/
theorem storePseudocode_of_exec_eq_store (hcode : ∀ c, opCode (mk c) = code)
    (hexec : ∀ c s, exec (mk c) s = store w c (diagProbe (mk c) s)) : storePseudocode mk code w := by
  intro c s
  rw [← storeData_eq_extractLsb']
  refine ⟨hcode c, fun s' written => ?_, fun e refused => ?_⟩
  · obtain ⟨hx, hcsr, same⟩ := memWrite_frame written
    exact ⟨(hexec c s).trans (store_of_memWrite_ok written), by simpa using hx, by simpa using hcsr,
      by simpa [sameMachine] using same⟩
  · exact (hexec c s).trans (store_of_memWrite_error refused)

/-- A class that follows the pseudocode of a store does what the target of its write says: phase 0, which comes before
the write, changes neither the map nor RAM. -/
theorem storeRule_of_storePseudocode (h : storePseudocode mk code w) : storeRule mk w := by
  intro c s
  obtain ⟨-, completes, faults⟩ := h c s
  rw [← storeData_eq_extractLsb'] at completes faults
  refine ⟨fun refused => ?_, fun ram hs => ?_, fun device => ?_⟩
  · exact faults _ (memWrite_of_refused (by simpa [accessAddr] using refused))
  · obtain ⟨-, -, hm⟩ := diagProbe_inv (mk c) hs
    obtain ⟨next, hx, hcsr, same⟩ := completes _ (memWrite_of_ram (by simpa [accessAddr] using ram))
    refine ⟨_, next, fun k hk => ?_, fun b outside => ?_, hx, hcsr, same, rfl⟩
    · have placed := State.byteAt_writeRam_self hm w c.aluOut (storeData w c) hk
      rwa [diagProbe_cfg, valueByte_storeData c hk] at placed
    · rw [State.byteAt_writeRam_of_not_inAccess hm w c.aluOut _ outside, diagProbe_byteAt]
  · obtain ⟨next, hx, hcsr, same⟩ := completes _ (memWrite_of_device (by simpa [accessAddr] using device))
    exact ⟨_, next, diagProbe_mem (mk c) s, hx, hcsr, same, rfl⟩

end

/-- Settles O17: each store class runs `store` after phase 0. -/
theorem storeClassesFollowTheirPseudocode : Obligations.StoreClassesFollowTheirPseudocode :=
  ⟨storePseudocode_of_exec_eq_store (fun _ => rfl) fun _ _ => rfl,
    storePseudocode_of_exec_eq_store (fun _ => rfl) fun _ _ => rfl,
    storePseudocode_of_exec_eq_store (fun _ => rfl) fun _ _ => rfl⟩

/-- Settles O19: each store class follows its pseudocode, whose bus write does what its target says. -/
theorem storesToRamAndPeripherals : Obligations.StoresToRamAndPeripherals := by
  obtain ⟨sb, sh, sw⟩ := storeClassesFollowTheirPseudocode
  exact ⟨storeRule_of_storePseudocode sb, storeRule_of_storePseudocode sh, storeRule_of_storePseudocode sw⟩

end Sys2Proof.Machine
end

section
/-!
The branches (43_branches.md): a class whose whole transaction is phase 0 (R101) has no effect.
-/
namespace Sys2Proof.Machine

/-- FENCE, MRET and the branches have no effect: phase 0 changes nothing but what peripherals have seen, and nothing at all
without the probe (R101, R140, R171, R172). -/
theorem hasNoEffect_of_family {i : Instr} (s : State)
    (hi : family i = .memoryFence ∨ family i = .trapReturn ∨ family i = .branch) : hasNoEffect i s :=
  ⟨diagProbe i s, exec_eq_diagProbe s hi, diagProbe_x i s, diagProbe_csr i s, diagProbe_mem i s,
    ⟨diagProbe_cfg i s, diagProbe_commands i s⟩, rfl, diagProbe_none⟩

/-- Settles O25: the six classes are of the branch family, whose transaction is phase 0 alone. -/
theorem branchesDoNothing : Obligations.BranchesDoNothing := by
  intro c s
  have branches : ∀ i ∈ [Instr.beq c, .bne c, .blt c, .bge c, .bltu c, .bgeu c], family i = .branch := by
    simp [family]
  exact ⟨fun i hi => hasNoEffect_of_family s (.inr (.inr (branches i hi))), rfl, rfl, rfl, rfl, rfl, rfl⟩

end Sys2Proof.Machine
end

section
/-!
The CSR read-modify-write engine (44_csr.md): what the six classes do (R150 to R158), and their immediate forms (R159).
-/
namespace Sys2Proof.Machine

/-! ### The CSR bank under a register write -/

/-- A register write changes no CSR. -/
@[simp] theorem State.readCsr_writeReg (s : State) (i : RegIndex) (v : Word) (a : CsrAddr) :
    (s.writeReg i v).readCsr a = s.readCsr a :=
  State.readCsr_congr (State.writeReg_csr s i v) a

/-- A register write maps no CSR. -/
@[simp] theorem State.csrMapped_writeReg (s : State) (i : RegIndex) (v : Word) (a : CsrAddr) :
    (s.writeReg i v).csrMapped a = s.csrMapped a := by
  simp only [State.csrMapped, State.writeReg_csr]

/-! ### The classes as read-modify-writes -/

/-- The read-modify-write from `p`: the snapshot is taken before the CSR write, and the register write, which comes last,
leaves the bank alone (R150). -/
theorem csrReadModifyWrite_spec (f : Word → Word → Word) (m : Word) (c : Fields) (p : State) :
    ∃ t, csrReadModifyWrite f m c p = .next t ∧
      t.readCsr c.csr = f (p.readCsr c.csr) m ∧ t.csrMapped c.csr = true ∧
      (c.rd ≠ 0 → t.readReg c.rd = p.readCsr c.csr) ∧
      onlyRegister c.rd p t ∧ onlyCsr c.csr p t ∧ t.mem = p.mem ∧ sameMachine p t ∧ t.devices = p.devices := by
  refine ⟨_, rfl, by simp, by simp, fun hrd => State.readReg_writeReg_self _ hrd _,
    State.onlyRegister_writeReg rfl c.rd _, fun b hb => ?_, by simp, by simp [sameMachine], by simp⟩
  rw [State.readCsr_writeReg, State.csrMapped_writeReg]
  exact p.onlyCsr_writeCsr c.csr _ b hb

section
variable {mk : Fields → Instr} {code : BitVec 5} {f : Word → Word → Word} {operand : Fields → Word}

/-- A class that runs the read-modify-write after phase 0 follows the rule of a CSR class: phase 0 changes nothing but
what peripherals have seen. -/
theorem csrRule_of_exec_eq_csrReadModifyWrite (hcode : ∀ c, opCode (mk c) = code)
    (hexec : ∀ c s, exec (mk c) s = csrReadModifyWrite f (operand c) c (diagProbe (mk c) s)) :
    csrRule mk code f operand := by
  intro c s
  refine ⟨hcode c, ?_⟩
  rw [hexec c s]
  simpa [onlyRegister, onlyCsr, sameMachine] using csrReadModifyWrite_spec f (operand c) c (diagProbe (mk c) s)

/-- What the CSR holds once a transaction of a CSR class has completed. -/
theorem readCsr_of_csrRule (h : csrRule mk code f operand) {c : Fields} {s t : State}
    (completed : exec (mk c) s = .next t) : t.readCsr c.csr = f (s.readCsr c.csr) (operand c) := by
  obtain ⟨-, u, next, written, -⟩ := h c s
  obtain rfl : u = t := by simpa [next] using completed
  exact written

end

/-- Settles O12: both classes run the read-modify-write that overwrites. -/
theorem csrReadAndWrite : Obligations.CsrReadAndWrite :=
  ⟨csrRule_of_exec_eq_csrReadModifyWrite (fun _ => rfl) fun _ _ => rfl,
    csrRule_of_exec_eq_csrReadModifyWrite (fun _ => rfl) fun _ _ => rfl⟩

/-- Settles O13: both classes run the read-modify-write that sets bits. -/
theorem csrReadAndSetBits : Obligations.CsrReadAndSetBits :=
  ⟨csrRule_of_exec_eq_csrReadModifyWrite (fun _ => rfl) fun _ _ => rfl,
    csrRule_of_exec_eq_csrReadModifyWrite (fun _ => rfl) fun _ _ => rfl⟩

/-- Settles O14: both classes run the read-modify-write that clears bits. -/
theorem csrReadAndClearBits : Obligations.CsrReadAndClearBits :=
  ⟨csrRule_of_exec_eq_csrReadModifyWrite (fun _ => rfl) fun _ _ => rfl,
    csrRule_of_exec_eq_csrReadModifyWrite (fun _ => rfl) fun _ _ => rfl⟩

/-! ### The immediate forms -/

/-- Without the probe a read-modify-write takes nothing but its operand from `rs1_data`, whatever class runs it. -/
theorem csrReadModifyWrite_with_rs1Data {s : State} (hp : s.cfg.diagProbe = none) (i j : Instr)
    (f : Word → Word → Word) (operand v : Word) (c : Fields) :
    csrReadModifyWrite f operand c (diagProbe i s) =
      csrReadModifyWrite f operand { c with rs1Data := v } (diagProbe j s) :=
  eq_of_no_probe hp (csrReadModifyWrite f operand c) (csrReadModifyWrite f operand { c with rs1Data := v })
    (csrReadModifyWrite_congr_fields rfl rfl rfl)

/-- A value of at most 31 has no bit in 31:5. -/
theorem ushiftRight_five_eq_zero {m : Word} (small : m.toNat ≤ 31) : m >>> 5 = 0 := by
  apply BitVec.eq_of_toNat_eq
  simp only [BitVec.toNat_ushiftRight, Nat.shiftRight_eq_div_pow, BitVec.ofNat_eq_ofNat, BitVec.toNat_ofNat]
  omega

/-- Setting bits below bit `n` leaves the bits from `n` on alone. -/
theorem or_ushiftRight_of_low {m : Word} {n : Nat} (low : m >>> n = 0) (t : Word) : (t ||| m) >>> n = t >>> n := by
  rw [BitVec.ushiftRight_or_distrib, low]
  exact BitVec.or_zero

/-- Clearing bits below bit `n` leaves the bits from `n` on alone. -/
theorem and_not_ushiftRight_of_low {m : Word} {n : Nat} (low : m >>> n = 0) (t : Word) :
    (t &&& ~~~m) >>> n = t >>> n := by
  refine BitVec.eq_of_getLsbD_eq fun k _ => ?_
  have clear : m.getLsbD (n + k) = false := by
    simpa using congrArg (fun v : Word => v.getLsbD k) low
  simp only [BitVec.getLsbD_ushiftRight, BitVec.getLsbD_and, BitVec.getLsbD_not, clear, Bool.not_false, Bool.and_true,
    Bool.and_eq_left_iff_imp, decide_eq_true_eq]
  exact BitVec.lt_of_getLsbD

/-- Settles O15: each immediate form is the register form's read-modify-write, and a small operand has no bit that could
reach bits 31:5 of the CSR. -/
theorem csrImmediateFormsAreRegisterForms : Obligations.CsrImmediateFormsAreRegisterForms := by
  intro c s hp
  refine ⟨csrReadModifyWrite_with_rs1Data hp _ _ csrOverwrite c.immZ c.immZ c,
    csrReadModifyWrite_with_rs1Data hp _ _ csrSetBits c.immZ c.immZ c,
    csrReadModifyWrite_with_rs1Data hp _ _ csrClearBits c.immZ c.immZ c,
    fun small t => ⟨fun written => ?_, fun set => ?_, fun cleared => ?_⟩⟩
  · rw [readCsr_of_csrRule csrReadAndWrite.2 written]
    exact ushiftRight_five_eq_zero small
  · rw [readCsr_of_csrRule csrReadAndSetBits.2 set]
    exact or_ushiftRight_of_low (ushiftRight_five_eq_zero small) (s.readCsr c.csr)
  · rw [readCsr_of_csrRule csrReadAndClearBits.2 cleared]
    exact and_not_ushiftRight_of_low (ushiftRight_five_eq_zero small) (s.readCsr c.csr)

end Sys2Proof.Machine
end

section
/-!
The system classes (45_system.md): MRET and FENCE have no effect (R171, R172), and ECALL is one CSR write (R170, R198).
-/
namespace Sys2Proof.Machine

/-- Settles O26: MRET is the trap return and FENCE the memory fence, and the transaction of either is phase 0 alone. -/
theorem mretAndFenceDoNothing : Obligations.MretAndFenceDoNothing := fun _ s =>
  ⟨hasNoEffect_of_family s (.inr (.inl rfl)), hasNoEffect_of_family s (.inl rfl), rfl, rfl⟩

/-- R170: after phase 0, which changes no parameter, ECALL is the write of the cause code to the cause CSR. -/
theorem exec_ecall (c : Fields) (s : State) :
    exec (.ecall c) s =
      .next ((diagProbe (.ecall c) s).writeCsr s.cfg.ecallCauseCsr s.cfg.ecallCauseCode) := by
  have entry : exec (.ecall c) s = .next (takeEnvironmentCall (diagProbe (.ecall c) s)) := rfl
  rw [entry, takeEnvironmentCall, diagProbe_cfg]

/-- Settles O27, from the laws of a CSR write: phase 0 before it changes nothing but what peripherals have seen. -/
theorem ecallWritesTheCauseAndNothingElse : Obligations.EcallWritesTheCauseAndNothingElse := by
  intro c s
  refine ⟨rfl, _, exec_ecall c s, State.readCsr_writeCsr_self _ _ _, State.csrMapped_writeCsr_self _ _ _,
    fun b hb => ?_, diagProbe_x _ s, diagProbe_mem _ s, ⟨diagProbe_cfg _ s, diagProbe_commands _ s⟩, rfl⟩
  rw [← diagProbe_readCsr (.ecall c) s b, ← diagProbe_csrMapped (.ecall c) s b]
  exact State.onlyCsr_writeCsr _ _ _ b hb

end Sys2Proof.Machine
end

section
/-!
The residual class (46_other.md): OTHER is one register write (R180).
-/
namespace Sys2Proof.Machine

/-- R180: after phase 0 OTHER is the write of `alu_out` to `rd`. -/
theorem exec_other (c : Fields) (s : State) :
    exec (.other c) s = .next ((diagProbe (.other c) s).writeReg c.rd c.aluOut) := rfl

/-- Settles O28, from the laws of a register write: phase 0 before it changes nothing but what peripherals have seen, and
without the probe a write to register 0 is all there is, and it is dropped. -/
theorem otherWritesTheResult : Obligations.OtherWritesTheResult := by
  intro c s
  refine ⟨rfl, _, exec_other c s, fun hrd => State.readReg_writeReg_self _ hrd _,
    State.onlyRegister_writeReg (diagProbe_x _ s) c.rd _, by simp, by simp, by simp [sameMachine], by simp,
    fun hrd hprobe => ?_⟩
  rw [diagProbe_none hprobe, hrd]
  exact State.writeReg_zero s c.aluOut

end Sys2Proof.Machine
end

section
/-!
One step and the reference platform: the decoded command is what a step runs (D1, R225), what the driver makes of its result
(R194), the command words of 95_test_vectors.md, and the reference `BusAdmits` (D8, D9).
-/
namespace Sys2Proof.Machine

/-! ### What the driver makes of a result -/

section
variable {i : Instr} {s : State}

/-- A driver that ends the run at a fault takes every result as it is (D13). -/
theorem driverTakes_of_endRun (h : s.cfg.onFault = .endRun) (o : Host.Outcome State Fault Refusal) :
    driverTakes i s o = o := by
  cases o with
  | next t => rfl
  | refused r => rfl
  | fault f => simp only [driverTakes, h]

/-- Every driver takes a completed transaction as it is. -/
theorem driverTakes_next (t : State) : driverTakes i s (.next t) = .next t := rfl

/-- A driver that injects traps goes on from phase 0 of the faulting transaction (R194, log 25). -/
theorem driverTakes_fault_of_injectTrap (h : s.cfg.onFault = .injectTrap) (f : Fault) :
    driverTakes i s (.fault f) = .next (injectTrap i f (diagProbe i s)) := by
  simp only [driverTakes, h]

end

/-! ### One step -/

/-- A step takes the next word off the stream, runs its command and lets the driver take the result (D1, R225). -/
theorem step_of_decode {s : State} {w : CommandWord} {rest : List CommandWord} {i : Instr}
    (next : s.commands = w :: rest) (h : decode w = .ok i) :
    step s = driverTakes i { s with commands := rest } (exec i { s with commands := rest }) := by
  simp only [step, nextCommand, next, h]

/-- With no command left the run is over (D24). -/
theorem step_of_no_command {s : State} (h : s.commands = []) : step s = .refused .noCommand := by
  simp only [step, nextCommand, h]

/-- Settles O6: the step of a decoded word, and the results that every driver or this driver takes as they are. -/
theorem stepRunsTheDriversNextCommand : Obligations.StepRunsTheDriversNextCommand := by
  refine ⟨fun s w rest i next decoded => ⟨step_of_decode next decoded, fun taken => ?_⟩, fun s => step_of_no_command⟩
  rw [step_of_decode next decoded]
  rcases taken with endRun | ⟨t, completed⟩
  · exact driverTakes_of_endRun (s := { s with commands := rest }) endRun _
  · rw [completed, driverTakes_next]

/-- A table row that decodes is a command word that decodes (log 5). -/
theorem decode_of_decodeTableWord {nbits w : Nat} {i : Instr} (h : decodeTableWord nbits w = some i) :
    decode (BitVec.ofNat 150 (tableWord nbits w)) = .ok i := by
  unfold decodeTableWord at h
  split at h
  case isTrue =>
    split at h
    case h_1 j decoded => rw [decoded, Option.some.inj h]
    case h_2 => cases h
  case isFalse => cases h

/-- Settles O7: the word handed over is the next one, and taking it off the stream gives the state back. -/
theorem stepRunsTheWordHandedOver : Obligations.StepRunsTheWordHandedOver := by
  intro s nbits w i h
  exact step_of_decode (State.handOver_commands s _) (decode_of_decodeTableWord h)

/-- Settles O5, by decoding the five words. -/
theorem commandWordsOfTheSpecDecode : Obligations.CommandWordsOfTheSpecDecode :=
  ⟨rfl, rfl, rfl, rfl, rfl⟩

/-! ### The reference map -/

/-- An access whose offset from 0x1000, counted modulo 2^32, leaves room for its bytes lies within 0x1000 to 0x1FFF: the
offset of a lower address wraps to a large one. -/
theorem offset_add_bytes_le_iff (w : Width) (a : Word) :
    (a - 0x1000).toNat + w.bytes ≤ 0x1000 ↔ 0x1000 ≤ a.toNat ∧ a.toNat + w.bytes ≤ 0x2000 := by
  have width : 1 ≤ w.bytes ∧ w.bytes ≤ 4 := by cases w <;> decide
  have range : a.toNat < 2 ^ 32 := a.isLt
  simp only [BitVec.toNat_sub, BitVec.reduceToNat]
  omega

/-- The reference window asks for alignment and for room, whatever the direction and the width (D8, D9). -/
theorem referenceRam_admits_iff (dir : Dir) (w : Width) (a : Word) :
    Window.admits .referenceRam dir w a = true ↔
      0x1000 ≤ a.toNat ∧ a.toNat + w.bytes ≤ 0x2000 ∧ a.toNat % w.bytes = 0 := by
  have admitted : Window.admits .referenceRam dir w a =
      (decide (a.toNat % w.bytes = 0) && decide ((a - 0x1000).toNat + w.bytes ≤ 0x1000)) := by
    cases dir <;> cases w <;> rfl
  rw [admitted, Bool.and_eq_true, decide_eq_true_iff, decide_eq_true_iff, offset_add_bytes_le_iff, and_comm, and_assoc]

/-- A map of one window answers with that window's kind what the window admits. -/
theorem target_of_single_window {cfg : Config} {win : Window} (h : cfg.windows = [win]) (dir : Dir) (w : Width)
    (a : Word) : Config.target cfg dir w a = if Window.admits win dir w a = true then some win.kind else none := by
  unfold Config.target
  rw [h, List.find?_singleton]
  split <;> rfl

/-- Settles O24: the reference map is the reference window alone. -/
theorem referenceMapAdmitsAlignedRamOnly : Obligations.ReferenceMapAdmitsAlignedRamOnly := by
  intro dir w a
  rw [target_of_single_window (win := .referenceRam) rfl]
  exact if_congr (referenceRam_admits_iff dir w a) rfl rfl

end Sys2Proof.Machine
end

section
/-!
Faults (60_exceptions.md): the one fault of the block (R190 to R192), and what the driver does with it (R194, R195).
-/
namespace Sys2Proof.Machine

/-! ### The fault of the block -/

/-- A transaction whose access is refused ends in the fault of that access (R190, R191). -/
theorem exec_of_refused {i : Instr} {s : State} {dir : Dir} {w : Width} (access : accessForm i = some (dir, w))
    (refused : Config.target s.cfg dir w i.fields.aluOut = none) :
    exec i s = .fault (.writebackMem dir w i.fields.aluOut) := by
  rcases exec_cases i s with ⟨dir', w', own, -, e⟩ | ⟨t, -, effect⟩
  · rw [access] at own; cases own
    exact e
  · exact absurd (by simpa using refused) (effect.admitted access)

/-- Settles O29: a transaction that faults does so by its own refused access, and a refused access faults. -/
theorem faultExactlyWhenTheAccessIsRefused : Obligations.FaultExactlyWhenTheAccessIsRefused := by
  refine fun i s f => ⟨fun h => ?_, ?_⟩
  · rcases exec_cases i s with ⟨dir, w, access, refused, e⟩ | ⟨t, e, -⟩ <;> rw [e] at h <;> cases h
    exact ⟨dir, w, access, refused, rfl⟩
  · rintro ⟨dir, w, access, refused, rfl⟩
    exact exec_of_refused access refused

/-- Settles O30: a transaction completes or ends in the fault of its own access. -/
theorem everythingElseIsTotal : Obligations.EverythingElseIsTotal := by
  intro i s
  rcases exec_cases i s with ⟨dir, w, access, -, e⟩ | ⟨t, e, -⟩
  · exact ⟨fun r => by simp [e], fun silent => by simp [access] at silent⟩
  · exact ⟨fun r => by simp [e], fun _ => ⟨t, e⟩⟩

/-! ### What the driver does with it -/

/-- An injected trap leaves the CSRs alone that the driver does not write (log 25). -/
theorem injectTrap_csr_of_not_written {i : Instr} {f : Fault} {s : State} {a : CsrAddr}
    (h : ∀ p ∈ Config.trapWrites s i f, p.1 ≠ a) :
    (injectTrap i f s).readCsr a = s.readCsr a ∧ (injectTrap i f s).csrMapped a = s.csrMapped a := by
  have kept : CsrBank.lookup (injectTrap i f s).csr a = CsrBank.lookup s.csr a :=
    State.lookup_writeCsrs_of_not_mem s h
  simp only [State.readCsr, State.csrMapped, kept, and_self]

/-- Settles O45: the driver ends the run in the fault, or injects its trap into the state that phase 0 made. -/
theorem theDriverDecidesWhatAFaultDoes : Obligations.TheDriverDecidesWhatAFaultDoes := by
  intro s w rest i f next decoded faults
  rw [step_of_decode next decoded, faults]
  refine ⟨fun endRun => driverTakes_of_endRun (s := { s with commands := rest }) endRun _, fun inject =>
    ⟨_, driverTakes_fault_of_injectTrap (s := { s with commands := rest }) inject f, by simp, by simp, by simp, by simp,
      by simp, fun a unwritten => ?_⟩⟩
  obtain ⟨value, mapped⟩ := injectTrap_csr_of_not_written unwritten
  exact ⟨value.trans (diagProbe_readCsr i _ a), mapped.trans (diagProbe_csrMapped i _ a)⟩

end Sys2Proof.Machine
end

section
/-!
The driver's duty and hazards (70_reset_and_hazards.md): a well-formed word is never refused (R225), and the next command
finds the register and the CSR that the last one wrote (R226).
-/
namespace Sys2Proof.Machine

/-! ### The driver's duty -/

/-- A word of one of the 24 classes decodes (R82). -/
theorem decode_of_wellFormed {w : CommandWord} (h : CommandWord.wellFormed w = true) : ∃ i, decode w = .ok i := by
  have defined : (opField w).toNat < 24 := of_decide_eq_true h
  rcases decode_cases w with ⟨reserved, -⟩ | ⟨-, i, decoded, -⟩
  · omega
  · exact ⟨i, decoded⟩

/-- Settles O32: the word decodes, and its transaction completes or faults, whatever the driver makes of the fault. -/
theorem stepNeverRefusesAValidCommand : Obligations.StepNeverRefusesAValidCommand := by
  intro s w rest next valid
  obtain ⟨i, decoded⟩ := decode_of_wellFormed valid
  rw [step_of_decode next decoded]
  rcases driverTakes_cases i { s with commands := rest } with ⟨t, -, e, -⟩ | ⟨⟨dir, width, a⟩, -, ⟨-, e⟩ | ⟨-, e⟩⟩
  · exact .inl ⟨t, e⟩
  · exact .inr ⟨dir, width, a, e⟩
  · exact .inl ⟨_, e⟩

/-! ### The register just written -/

/-- Every CSR class completes with the CSR's old value in `rd` (R150). -/
theorem exec_returns_csr {i : Instr} (hi : family i = .csrRegister ∨ family i = .csrImmediate) (hrd : i.fields.rd ≠ 0)
    (s : State) : ∃ t, exec i s = .next t ∧ t.readReg i.fields.rd = s.readCsr i.fields.csr := by
  cases i with
  | csrrw c | csrrwi c | csrrs c | csrrsi c | csrrc c | csrrci c =>
    exact ⟨_, rfl, (State.readReg_writeReg_self _ hrd _).trans (diagProbe_readCsr _ s c.csr)⟩
  | lb | lbu | lh | lhu | lw | sb | sh | sw | beq | bne | blt | bge | bltu | bgeu | ecall | mret | fence | other =>
    simp [family] at hi

/-- A load that completes puts what its target answers, widened, in `rd` (R104). -/
theorem registerValue_of_loadRule {mk : Fields → Instr} {w : Width} {signed : Bool} {c : Fields} {s t : State}
    (h : loadRule mk w signed) (hfamily : family (mk c) = .load w signed) (hfields : (mk c).fields = c)
    (hrd : c.rd ≠ 0) (completed : exec (mk c) s = .next t) :
    registerValue (mk c) s = some (t.readReg c.rd) := by
  obtain ⟨refused, ram, device⟩ := h c s
  simp only [registerValue, hfamily, hfields]
  cases target : Config.target s.cfg .read w c.aluOut with
  | none => simp [refused target] at completed
  | some k =>
    cases k with
    | ram =>
      obtain ⟨u, next, loaded, -⟩ := ram target
      rw [next] at completed; cases completed
      exact congrArg some (loaded hrd).symm
    | device =>
      obtain ⟨u, next, loaded, -⟩ := device target
      rw [next] at completed; cases completed
      exact congrArg some (loaded hrd).symm

/-- The register column of R104: a class that writes a register leaves its value in `rd`. -/
theorem registerValue_of_exec {i : Instr} {s t : State} (completed : exec i s = .next t)
    (writes : writesRegister i = true) (hrd : i.fields.rd ≠ 0) :
    registerValue i s = some (t.readReg i.fields.rd) := by
  obtain ⟨lb, lbu, lh, lhu, lw⟩ := loadsFromRamAndPeripherals
  cases i with
  | lb c => exact registerValue_of_loadRule lb rfl rfl hrd completed
  | lbu c => exact registerValue_of_loadRule lbu rfl rfl hrd completed
  | lh c => exact registerValue_of_loadRule lh rfl rfl hrd completed
  | lhu c => exact registerValue_of_loadRule lhu rfl rfl hrd completed
  | lw c => exact registerValue_of_loadRule lw rfl rfl hrd completed
  | csrrw c | csrrwi c | csrrs c | csrrsi c | csrrc c | csrrci c =>
    obtain ⟨u, next, returned⟩ := exec_returns_csr (by simp [family]) hrd s
    rw [next] at completed; cases completed
    exact congrArg some returned.symm
  | other c =>
    obtain ⟨-, u, next, written, -⟩ := otherWritesTheResult c s
    rw [next] at completed; cases completed
    exact congrArg some (written hrd).symm
  | sb | sh | sw | beq | bne | blt | bge | bltu | bgeu | ecall | mret | fence => cases writes

/-- The fields of the upstream's command are those of the word, the register operands read from the state (R89). -/
theorem fields_of_upstreamCommand {word : BitVec 32} {result : Word} {s : State} {j : Instr}
    (h : upstreamCommand word result s = some j) : j.fields = upstreamFields word result s := by
  obtain ⟨r, -, rfl⟩ := Option.map_eq_some_iff.mp h
  exact (fields_opCode_withFields r.cls _).1

/-! ### The CSR just written -/

/-- The CSR column of R104: a class that writes a CSR leaves its value there. -/
theorem csrValue_of_exec {i : Instr} {s t : State} {a : CsrAddr} (completed : exec i s = .next t)
    (writes : csrWritten i s.cfg = some a) : csrValue i s = some (t.readCsr a) := by
  cases i with
  | csrrw c => cases writes; exact congrArg some (readCsr_of_csrRule csrReadAndWrite.1 completed).symm
  | csrrwi c => cases writes; exact congrArg some (readCsr_of_csrRule csrReadAndWrite.2 completed).symm
  | csrrs c => cases writes; exact congrArg some (readCsr_of_csrRule csrReadAndSetBits.1 completed).symm
  | csrrsi c => cases writes; exact congrArg some (readCsr_of_csrRule csrReadAndSetBits.2 completed).symm
  | csrrc c => cases writes; exact congrArg some (readCsr_of_csrRule csrReadAndClearBits.1 completed).symm
  | csrrci c => cases writes; exact congrArg some (readCsr_of_csrRule csrReadAndClearBits.2 completed).symm
  | ecall c =>
    cases writes
    obtain ⟨-, u, next, written, -⟩ := ecallWritesTheCauseAndNothingElse c s
    rw [next] at completed; cases completed
    exact congrArg some written.symm
  | lb | lbu | lh | lhu | lw | sb | sh | sw | beq | bne | blt | bge | bltu | bgeu | mret | fence | other => cases writes

/-- Settles O42: `rd` and the CSR hold the written values, the upstream reads its operands from the register file, and a
CSR class returns what the CSR holds. -/
theorem theNextCommandSeesTheRegisterAndTheCsrJustWritten :
    Obligations.TheNextCommandSeesTheRegisterAndTheCsrJustWritten := by
  intro i s t completed
  refine ⟨fun writes hrd => ⟨_, registerValue_of_exec completed writes hrd, rfl, fun word result j upstream => ?_⟩,
    fun a writes => ⟨_, csrValue_of_exec completed writes, rfl, fun j hj hcsr hrd => ?_⟩⟩
  · rw [fields_of_upstreamCommand upstream]
    exact ⟨fun rs1 => congrArg t.readReg rs1, fun rs2 => congrArg t.readReg rs2⟩
  · rw [← hcsr]
    exact exec_returns_csr hj hrd t

end Sys2Proof.Machine
end
